-- ==== Sys2Proof/Word.lean ====
section
/-! DEFINITION. The one word of the block: a byte (00_scope.md R9). -/

namespace Sys2Proof

/-- A byte, unsigned, 0 to 255; bit 7 is the most significant (R9). -/
abbrev Byte := BitVec 8

end Sys2Proof
end

