-- ==== Sys2Proof/Syntax.lean ====
section
/-! DEFINITION. The operations, transitions, frame and vocabulary rows of spec/opcode_table.json as
one inductive, and the plain names they use. -/

namespace Sys2Proof

/-- The six values of the decoder's sequencer `state` (10_state.md R21, R22). -/
inductive DecState where
  | sync1
  | sync2
  | cmd
  | id
  | payloadSize
  | payload
deriving DecidableEq, Repr

/-- A handler that INIT may bind, told apart by a number (10_state.md R33). What it does when it is
invoked is not here but in `State.reactions` (log entry 9). -/
structure Handler where
  number : Byte
deriving DecidableEq, Repr

/-- The operands of one TRANSMIT call (43_encoder.md R160). -/
structure TxCall where
  command : Byte
  payload : List Byte
  payloadSize : Byte
  retries : Byte
deriving DecidableEq, Repr

/-- The two directions of the command vocabulary (44_command_vocabulary.md R181). -/
inductive Direction where
  | mainToLed
  | ledToMain
deriving DecidableEq, Repr

/-- The names of the command vocabulary (R182, R183). It is data: no rule of the block reads it. -/
inductive Vocabulary where
  | ledOn
  | ledOff
  | profileSet
  | profileNext
  | profilePrev
  | intensityNext
  | intensitySet
  | animationSpeed
  | maskKey
  | maskRow
  | maskMono
  | statusQuery
  | keyDown
  | keyBlink
  | iap
  | debug
  | status
deriving DecidableEq, Repr

/-- Who sends the command (R182 for main to LED, R183 for LED to main). -/
def Vocabulary.direction : Vocabulary → Direction
  | .debug => .ledToMain
  | .status => .ledToMain
  | _ => .mainToLed

/-- The six items a status report carries, in the source's order (R184); `Machine.statusReport` gives
them their values, and their layout is open. -/
inductive StatusItem where
  | profileCount
  | currentProfile
  | onOffFlag
  | reactiveFlag
  | brightness
  | errorCount
deriving DecidableEq, Repr

/-- The values of the five items that the reporting layer knows; the sixth is the block's (R184). That
each is a number is the model's choice (log entry 27). -/
structure StatusValues where
  profileCount : Nat
  currentProfile : Nat
  onOffFlag : Nat
  reactiveFlag : Nat
  brightness : Nat
deriving DecidableEq, Repr

/-- One constructor per row of spec/opcode_table.json. -/
inductive Instr where
  /-- INIT (R110); `none` is the absent handler of R113. -/
  | init (handler : Option Handler)
  /-- CONSUME (R120), the umbrella of the twelve transitions. -/
  | consume (b : Byte)
  /-- ON_SILENCE (R150). -/
  | onSilence
  /-- TRANSMIT with `payloadSize <= 64` (R163). -/
  | transmitOk (command : Byte) (payload : List Byte) (payloadSize retries : Byte)
  /-- TRANSMIT with `payloadSize > 64` (R162). -/
  | transmitReject (command : Byte) (payload : List Byte) (payloadSize retries : Byte)
  /-- RX.SYNC1.MATCH (R122). -/
  | rxSync1Match (b : Byte)
  /-- RX.SYNC1.MISS (R123). -/
  | rxSync1Miss (b : Byte)
  /-- RX.SYNC2.MATCH (R124). -/
  | rxSync2Match (b : Byte)
  /-- RX.SYNC2.MISS.RESYNC (R125). -/
  | rxSync2MissResync (b : Byte)
  /-- RX.SYNC2.MISS.DROP (R126). -/
  | rxSync2MissDrop (b : Byte)
  /-- RX.CMD (R128). -/
  | rxCmd (command : Byte)
  /-- RX.ID (R129). -/
  | rxId (id : Byte)
  /-- RX.SIZE.ZERO (R130); its byte is 0. -/
  | rxSizeZero
  /-- RX.SIZE.OK (R131), a size byte 1 to 64. -/
  | rxSizeOk (n : Byte)
  /-- RX.SIZE.OVER (R132), a size byte 65 to 255. -/
  | rxSizeOver (n : Byte)
  /-- RX.PAYLOAD.MORE (R133). -/
  | rxPayloadMore (d : Byte)
  /-- RX.PAYLOAD.LAST (R134). -/
  | rxPayloadLast (d : Byte)
  /-- FRAME (R81): the five header bytes and the payload bytes, in wire order. -/
  | frame (sy1 sy2 command id n : Byte) (payload : List Byte)
  /-- The vocabulary rows (R182, R183): the COMMAND byte `c` on the incoming stream. -/
  | vocM2lLedOn (c : Byte)
  | vocM2lLedOff (c : Byte)
  | vocM2lProfileSet (c : Byte)
  | vocM2lProfileNext (c : Byte)
  | vocM2lProfilePrev (c : Byte)
  | vocM2lIntensityNext (c : Byte)
  | vocM2lIntensitySet (c : Byte)
  | vocM2lAnimationSpeed (c : Byte)
  | vocM2lMaskKey (c : Byte)
  | vocM2lMaskRow (c : Byte)
  | vocM2lMaskMono (c : Byte)
  | vocM2lStatusQuery (c : Byte)
  | vocM2lKeyDown (c : Byte)
  | vocM2lKeyBlink (c : Byte)
  | vocM2lIap (c : Byte)
  | vocL2mDebug (c : Byte)
  | vocL2mStatus (c : Byte)
deriving DecidableEq, Repr

/-- The instruction in which the vocabulary entry's command byte `c` arrives. -/
def Vocabulary.instr (c : Byte) : Vocabulary → Instr
  | .ledOn => .vocM2lLedOn c
  | .ledOff => .vocM2lLedOff c
  | .profileSet => .vocM2lProfileSet c
  | .profileNext => .vocM2lProfileNext c
  | .profilePrev => .vocM2lProfilePrev c
  | .intensityNext => .vocM2lIntensityNext c
  | .intensitySet => .vocM2lIntensitySet c
  | .animationSpeed => .vocM2lAnimationSpeed c
  | .maskKey => .vocM2lMaskKey c
  | .maskRow => .vocM2lMaskRow c
  | .maskMono => .vocM2lMaskMono c
  | .statusQuery => .vocM2lStatusQuery c
  | .keyDown => .vocM2lKeyDown c
  | .keyBlink => .vocM2lKeyBlink c
  | .iap => .vocM2lIap c
  | .debug => .vocL2mDebug c
  | .status => .vocL2mStatus c

end Sys2Proof
end

