-- ==== Sys2Proof/Config.lean ====
section
/-! DEFINITION. What is fixed for a block (00_scope.md R8). The open parameters are opaque constants
without a body, so that a statement holds whatever they are (log entries 1, 15, 18, 27). -/

namespace Sys2Proof

/-- `MAX_PAYLOAD_SIZE`, capacity of the payload buffer and largest legal `payloadSize` (R8, D31). -/
def Config.maxPayloadSize : Nat := 64

/-- `SYNC1_VAL`, OPEN (R8, D1): any byte. The block's copy of it is `State.sync1Val`. -/
opaque Config.sync1Val : Byte

/-- `SYNC2_VAL`, OPEN (R8, D1): any byte, equal to `SYNC1_VAL` or not (D33). -/
opaque Config.sync2Val : Byte

/-- `CMD_<NAME>`, OPEN (R8, R185): the code of each vocabulary entry, a parameter of the layer above. -/
opaque Config.cmdCode : Vocabulary → Byte

/-- The layout of a status report, OPEN (44_command_vocabulary.md R184, D26): the payload operand a
report with these items is sent with, as R172's 64-byte vector. -/
opaque Config.statusLayout : List (StatusItem × Nat) → Vector Byte 64

/-- How many bytes of that payload the report takes, OPEN (R184, D26); a message has at most 64. -/
opaque Config.statusSize : List (StatusItem × Nat) → Fin 65

/-- `SILENCE_TICKS`, OPEN (R223): the reference watchdog's threshold, owned by the timer. -/
opaque Config.silenceTicks : Nat

end Sys2Proof
end

