-- ==== Sys2Proof/WellFormed.lean ====
section
/-! DEFINITION. When an instruction is one its row of the table allows: the operand conditions, and
for a transition the `when` condition of 30_encoding.md R90 in the decoder's context. -/

namespace Sys2Proof

/-- What the choice of a row depends on besides the byte: the sync values and the sequencer
(30_encoding.md R90). -/
structure Ctx where
  sync1Val : Byte
  sync2Val : Byte
  state : DecState
  payloadPosition : Byte
  payloadSize : Byte
deriving DecidableEq, Repr

/-- An instruction its row allows: R113 (a real handler), R89 and R172 (TRANSMIT's two forms; the
payload operand's own length is sent in one byte, log entry 20), R90 (the transitions), R81 (a legal
frame). A vocabulary byte is eight free bits (R98). -/
def Instr.wellFormed (c : Ctx) : Instr → Bool
  | .init h => h.isSome
  | .consume _ => true
  | .onSilence => true
  | .transmitOk _ p n _ => n.toNat ≤ 64 && n.toNat ≤ p.length && p.length ≤ 255
  | .transmitReject _ p n _ => 65 ≤ n.toNat && p.length ≤ 255
  | .rxSync1Match b => c.state = .sync1 && b = c.sync1Val
  | .rxSync1Miss b => c.state = .sync1 && b ≠ c.sync1Val
  | .rxSync2Match b => c.state = .sync2 && b = c.sync2Val
  | .rxSync2MissResync b => c.state = .sync2 && b ≠ c.sync2Val && b = c.sync1Val
  | .rxSync2MissDrop b => c.state = .sync2 && b ≠ c.sync2Val && b ≠ c.sync1Val
  | .rxCmd _ => c.state = .cmd
  | .rxId _ => c.state = .id
  | .rxSizeZero => c.state = .payloadSize
  | .rxSizeOk n => c.state = .payloadSize && 1 ≤ n.toNat && n.toNat ≤ 64
  | .rxSizeOver n => c.state = .payloadSize && 65 ≤ n.toNat
  | .rxPayloadMore _ => c.state = .payload && c.payloadPosition.toNat + 1 < c.payloadSize.toNat
  | .rxPayloadLast _ => c.state = .payload && c.payloadPosition.toNat + 1 = c.payloadSize.toNat
  | .frame sy1 sy2 _ _ n p => sy1 = c.sync1Val && sy2 = c.sync2Val && n.toNat ≤ 64 && p.length = n.toNat
  | .vocM2lLedOn _ => true
  | .vocM2lLedOff _ => true
  | .vocM2lProfileSet _ => true
  | .vocM2lProfileNext _ => true
  | .vocM2lProfilePrev _ => true
  | .vocM2lIntensityNext _ => true
  | .vocM2lIntensitySet _ => true
  | .vocM2lAnimationSpeed _ => true
  | .vocM2lMaskKey _ => true
  | .vocM2lMaskRow _ => true
  | .vocM2lMaskMono _ => true
  | .vocM2lStatusQuery _ => true
  | .vocM2lKeyDown _ => true
  | .vocM2lKeyBlink _ => true
  | .vocM2lIap _ => true
  | .vocL2mDebug _ => true
  | .vocL2mStatus _ => true

end Sys2Proof
end

