-- ==== Sys2Proof/Decode.lean ====
section
/-! DEFINITION. The request encoding: how an operation is written as bytes, read back (the decoder)
and written (the encoder). The source selects operations by a function call (30_encoding.md R88), so
the layout is the model's own around the codes the table gives (log entries 11, 12, 13):

* `0x0v` with `v` the strobe vector `[init, rx_valid, silence, tx_req]` of R88 (bit 3 is `init`):
  an OP row, then its operands; `0x00` asserts nothing;
* `0x10 b`: a received byte, read by the opcode map of R90 in the decoder's context;
* `0x20 + k`, `c`: the `k`-th vocabulary row (R182 and R183 in order) with its command byte `c`;
* `0x40`, the five header bytes of a frame, then its payload (R81). -/

namespace Sys2Proof

/-- Why a byte string is no request. -/
inductive DecodeError where
  /-- The bytes end before the request does. -/
  | truncated
  /-- No strobe is asserted. -/
  | noStrobe
  /-- Strobes that may not be asserted together (R97, R215). -/
  | overlap
  /-- A first byte that stands for no row. -/
  | reservedLead (lead : Byte)
  /-- INIT's handler flag is neither "present" (0) nor "absent" (1). -/
  | reservedHandlerFlag (flag : Byte)
  /-- No transition of R90 applies (only outside the reachable states, R91). -/
  | noTransition
deriving DecidableEq, Repr

/-- What decoding gives: an instruction with the bytes after it, or the reason there is none. -/
abbrev Decoded := Except DecodeError (Instr × List Byte)

/-- 30_encoding.md R85: the size byte, unsigned, exceeds `MAX_PAYLOAD_SIZE`. -/
def isOversize (b : Byte) : Bool := Config.maxPayloadSize < b.toNat

/-- The opcode map of 30_encoding.md R90: which transition a byte takes. -/
def rxRow (c : Ctx) (b : Byte) : Option Instr :=
  match c.state with
  | .sync1 => if b = c.sync1Val then some (.rxSync1Match b) else some (.rxSync1Miss b)
  | .sync2 =>
    if b = c.sync2Val then some (.rxSync2Match b)
    else if b = c.sync1Val then some (.rxSync2MissResync b)
    else some (.rxSync2MissDrop b)
  | .cmd => some (.rxCmd b)
  | .id => some (.rxId b)
  | .payloadSize =>
    if b = 0#8 then some .rxSizeZero
    else if isOversize b then some (.rxSizeOver b)
    else some (.rxSizeOk b)
  | .payload =>
    if c.payloadPosition.toNat + 1 < c.payloadSize.toNat then some (.rxPayloadMore b)
    else if c.payloadPosition.toNat + 1 = c.payloadSize.toNat then some (.rxPayloadLast b)
    else none

/-- 43_encoder.md R160 and 30_encoding.md R89: the form of TRANSMIT its size operand selects. -/
def txRow (tx : TxCall) : Instr :=
  if isOversize tx.payloadSize then .transmitReject tx.command tx.payload tx.payloadSize tx.retries
  else .transmitOk tx.command tx.payload tx.payloadSize tx.retries

/-- The vocabulary entries in the order of R182 and R183, which is the table's. -/
def vocabularyRows : List Vocabulary :=
  [.ledOn, .ledOff, .profileSet, .profileNext, .profilePrev, .intensityNext, .intensitySet,
   .animationSpeed, .maskKey, .maskRow, .maskMono, .statusQuery, .keyDown, .keyBlink, .iap,
   .debug, .status]

/-- INIT's operand: a flag (0 a handler follows, 1 none) and the handler's number. -/
def decodeInit : List Byte → Decoded
  | flag :: rest =>
    if flag = 1#8 then .ok (.init none, rest)
    else if flag = 0#8 then
      match rest with
      | number :: rest => .ok (.init (some ⟨number⟩), rest)
      | [] => .error .truncated
    else .error (.reservedHandlerFlag flag)
  | [] => .error .truncated

/-- CONSUME's operand: `rx_byte` (R97). -/
def decodeConsume : List Byte → Decoded
  | b :: rest => .ok (.consume b, rest)
  | [] => .error .truncated

/-- TRANSMIT's operands: command, payloadSize, retries (R97), the number of payload bytes supplied,
and those bytes. -/
def decodeTransmit : List Byte → Decoded
  | command :: size :: retries :: len :: rest =>
    if len.toNat ≤ rest.length then
      .ok (txRow ⟨command, rest.take len.toNat, size, retries⟩, rest.drop len.toNat)
    else .error .truncated
  | _ => .error .truncated

/-- The strobe vector (R88). `tx_req` may accompany `rx_valid` or `silence` (R97): the decoder's
operation comes first and the TRANSMIT stays as the next request; the fetch refuses the pair where the
handler transmits in that byte too (`Machine.overlappingTransmits`). Any other combination is the
overlap of 60_exceptions.md R215. -/
def decodeOperation (lead : Byte) (rest : List Byte) : Decoded :=
  if lead = 0x08#8 then decodeInit rest
  else if lead = 0x04#8 then decodeConsume rest
  else if lead = 0x02#8 then .ok (.onSilence, rest)
  else if lead = 0x01#8 then decodeTransmit rest
  else if lead = 0x05#8 then
    match rest with
    | b :: rest => .ok (.consume b, 0x01#8 :: rest)
    | [] => .error .truncated
  else if lead = 0x03#8 then .ok (.onSilence, 0x01#8 :: rest)
  else if lead = 0x00#8 then .error .noStrobe
  else .error .overlap

/-- A received byte, by the opcode map (30_encoding.md R90, R99). -/
def decodeRxByte (c : Ctx) : List Byte → Decoded
  | b :: rest =>
    match rxRow c b with
    | some i => .ok (i, rest)
    | none => .error .noTransition
  | [] => .error .truncated

/-- A command byte of the vocabulary (R98). -/
def decodeVocabulary (v : Vocabulary) : List Byte → Decoded
  | c :: rest => .ok (v.instr c, rest)
  | [] => .error .truncated

/-- How many payload bytes follow a frame's size byte: as many as it says, none if it is illegal
(R81, R92). -/
def framePayloadLength (n : Byte) : Nat := if isOversize n then 0 else n.toNat

/-- The wire frame (R81): the size byte tells its length and nothing else does (R82). -/
def decodeFrame : List Byte → Decoded
  | sy1 :: sy2 :: command :: id :: n :: rest =>
    if framePayloadLength n ≤ rest.length then
      .ok (.frame sy1 sy2 command id n (rest.take (framePayloadLength n)),
        rest.drop (framePayloadLength n))
    else .error .truncated
  | _ => .error .truncated

/-- The decoder of requests: total on any bytes, in the context of the receive side. -/
def decode (c : Ctx) : List Byte → Decoded
  | [] => .error .truncated
  | lead :: rest =>
    if lead.toNat < 16 then decodeOperation lead rest
    else if lead = 0x10#8 then decodeRxByte c rest
    else if lead = 0x40#8 then decodeFrame rest
    else if lead.toNat < 0x20 then .error (.reservedLead lead)
    else
      match vocabularyRows[lead.toNat - 0x20]? with
      | some v => decodeVocabulary v rest
      | none => .error (.reservedLead lead)

/-! ## The encoder -/

/-- TRANSMIT's request: strobe `tx_req` (table row `0001`) and its operands. -/
def encodeTransmit (tx : TxCall) : List Byte :=
  0x01#8 :: tx.command :: tx.payloadSize :: tx.retries :: BitVec.ofNat 8 tx.payload.length :: tx.payload

/-- The bytes of an instruction: the table's code of its row and its operands. -/
def encode : Instr → List Byte
  | .init (some h) => [0x08#8, 0x00#8, h.number]
  | .init none => [0x08#8, 0x01#8]
  | .consume b => [0x04#8, b]
  | .onSilence => [0x02#8]
  | .transmitOk command payload payloadSize retries =>
    encodeTransmit ⟨command, payload, payloadSize, retries⟩
  | .transmitReject command payload payloadSize retries =>
    encodeTransmit ⟨command, payload, payloadSize, retries⟩
  | .rxSync1Match b => [0x10#8, b]
  | .rxSync1Miss b => [0x10#8, b]
  | .rxSync2Match b => [0x10#8, b]
  | .rxSync2MissResync b => [0x10#8, b]
  | .rxSync2MissDrop b => [0x10#8, b]
  | .rxCmd command => [0x10#8, command]
  | .rxId id => [0x10#8, id]
  | .rxSizeZero => [0x10#8, 0x00#8]
  | .rxSizeOk n => [0x10#8, n]
  | .rxSizeOver n => [0x10#8, n]
  | .rxPayloadMore d => [0x10#8, d]
  | .rxPayloadLast d => [0x10#8, d]
  | .frame sy1 sy2 command id n payload => 0x40#8 :: sy1 :: sy2 :: command :: id :: n :: payload
  | .vocM2lLedOn c => [0x20#8, c]
  | .vocM2lLedOff c => [0x21#8, c]
  | .vocM2lProfileSet c => [0x22#8, c]
  | .vocM2lProfileNext c => [0x23#8, c]
  | .vocM2lProfilePrev c => [0x24#8, c]
  | .vocM2lIntensityNext c => [0x25#8, c]
  | .vocM2lIntensitySet c => [0x26#8, c]
  | .vocM2lAnimationSpeed c => [0x27#8, c]
  | .vocM2lMaskKey c => [0x28#8, c]
  | .vocM2lMaskRow c => [0x29#8, c]
  | .vocM2lMaskMono c => [0x2A#8, c]
  | .vocM2lStatusQuery c => [0x2B#8, c]
  | .vocM2lKeyDown c => [0x2C#8, c]
  | .vocM2lKeyBlink c => [0x2D#8, c]
  | .vocM2lIap c => [0x2E#8, c]
  | .vocL2mDebug c => [0x2F#8, c]
  | .vocL2mStatus c => [0x30#8, c]

/-- The request that carries a vocabulary entry's own code (R185: the code is a parameter of the
layer above). -/
def Vocabulary.request (v : Vocabulary) : List Byte := encode (v.instr (Config.cmdCode v))

/-! ## The opcode table's own words (log entry 12) -/

/-- Byte `k` of a table word: bit 0 is the least significant bit of the first byte. -/
def tableByte (w k : Nat) : Byte := BitVec.ofNat 8 (w / 2 ^ (8 * k))

/-- Whether an 8-bit table word is one of the OP rows' strobe vectors `1000`, `0100`, `0010`, `0001`. -/
def isStrobeWord (w : Nat) : Bool := w = 8 || w = 4 || w = 2 || w = 1

/-- Whether a table word is read as a received byte. The OP, RXBYTE and CMDCODE rows all have words
of one byte and no bit tells the formats apart: a strobe vector is read as its OP row, any other byte
by the RXBYTE rows of state `PAYLOAD_SIZE`, the only ones whose bytes the table gives as numbers. -/
def isRxTableWord (nbits w : Nat) : Bool := decide (nbits = 8) && !isStrobeWord w

/-- The request bytes of a table word, every operand bit above it zero. -/
def tableRequest (nbits w : Nat) : List Byte :=
  if nbits = 40 then
    let n := tableByte w 4
    [0x40#8, tableByte w 0, tableByte w 1, tableByte w 2, tableByte w 3, n]
      ++ List.replicate (framePayloadLength n) 0#8
  else if isRxTableWord nbits w then [0x10#8, tableByte w 0]
  else if nbits ≤ 8 then
    if w = 8 then [0x08#8, 0#8, 0#8]
    else if w = 4 then [0x04#8, 0#8]
    else if w = 2 then [0x02#8]
    else if w = 1 then [0x01#8, 0#8, 0#8, 0#8, 0#8]
    else [tableByte w 0]
  else []

/-- The context in which a table word is read: state `PAYLOAD_SIZE` (see `isRxTableWord`). The sync
values play no part there. -/
def tableCtx : Ctx :=
  { sync1Val := Config.sync1Val, sync2Val := Config.sync2Val, state := .payloadSize,
    payloadPosition := 0#8, payloadSize := 0#8 }

/-- The instruction the decoder reads from a table word. -/
def decodeTableWord (nbits w : Nat) : Option Instr :=
  match decode tableCtx (tableRequest nbits w) with
  | .ok (i, _) => some i
  | .error _ => none

end Sys2Proof
end

