-- ==== Sys2Proof/Machine/State.lean ====
section
/-! DEFINITION. The state of one end of one link as plain data (10_state.md R20, R39), the reasons a
step can stop, and the state after reset. -/

namespace Sys2Proof.Machine

/-- The payload buffer as a list of (index, byte) in one canonical form: indices strictly rising and
below 64, no byte equal to what an unlisted index reads as (`Memory.wf`, 20_memory.md R51). -/
abbrev Memory := List Host.Cell

/-- A message by value (30_encoding.md R83, 20_memory.md R70): `payload` holds the `payloadSize`
meaningful bytes and no tail (41_decoder.md R137, D19). -/
structure Message where
  command : Byte
  id : Byte
  payloadSize : Byte
  payload : List Byte
deriving DecidableEq, Repr

/-- One invocation of the callback: to whom, which message, after how many consumed bytes
(00_scope.md R13 a), and what the handler can see of the decoder at that moment (41_decoder.md R139). -/
structure Delivery where
  handler : Handler
  message : Message
  position : Nat
  seenState : DecState
  seenPayloadPosition : Byte
  seenPreviousId : Byte
  seenErrors : Byte
deriving DecidableEq, Repr

/-- The result of a TRANSMIT (43_encoder.md R161). -/
inductive TxResult where
  | ok
  | errOversize
deriving DecidableEq, Repr

/-- The two framing errors the decoder absorbs (60_exceptions.md R200). -/
inductive FramingError where
  | sync2
  | oversize
deriving DecidableEq, Repr

/-- What a handler may try while it is invoked (41_decoder.md R138, 60_exceptions.md R219). -/
inductive HandlerCall where
  /-- TRANSMIT, which is allowed. -/
  | transmit (tx : TxCall)
  /-- TRANSMIT of a status report built at that moment, how a status query is answered (R138,
  44_command_vocabulary.md R184): allowed. -/
  | reportStatus (values : StatusValues) (retries : Byte)
  /-- CONSUME on the invoking decoder: outside the contract. -/
  | consume (b : Byte)
  /-- ON_SILENCE on the invoking decoder: outside the contract. -/
  | onSilence
  /-- INIT of the invoking block: outside the contract. -/
  | init (handler : Option Handler)
  /-- A write into the message buffer: outside the contract (60_exceptions.md R220). -/
  | writeBuffer (index : Nat) (b : Byte)
deriving DecidableEq, Repr

/-- Why the machine stops with a fault. -/
inductive Fault where
  /-- Raised by the payload store when the index is not in 0 to 63 (20_memory.md R52). No state a run
  reaches raises it. Safe: the model stops where the spec defines nothing. -/
  | payloadIndexOutOfRange (index : Nat)
deriving DecidableEq, Repr

/-- Why a step has no meaning (00_scope.md R12). All are safe: no next state is claimed. -/
inductive Refusal where
  /-- Raised by `exec` for an instruction without a meaning; no arm raises it now. Safe. -/
  | notModelled (mnemonic : String)
  /-- Raised by every operation but INIT before the first INIT (70_reset_and_hazards.md R241). Safe. -/
  | beforeInit
  /-- Raised by INIT without a handler (40_init.md R113). Safe. -/
  | initWithoutHandler
  /-- Raised by TRANSMIT when the payload operand has fewer than `payloadSize` bytes (43_encoder.md
  R172). Safe. -/
  | shortPayload
  /-- Raised when the handler applies an operation to the decoder that invokes it (41_decoder.md
  R138). Safe. -/
  | reentrantCall
  /-- Raised when the handler writes the message buffer (60_exceptions.md R220). Safe. -/
  | handlerWroteBuffer
  /-- Raised by a row (a transition of 30_encoding.md R90, a form of R89) applied where its condition
  does not hold: it cannot occur there. Safe. -/
  | whenNotMet (mnemonic : String)
  /-- Raised by the fetch: two operations on one instance at once (60_exceptions.md R215), or two
  TRANSMITs on one encoder at once (43_encoder.md R174). Safe. -/
  | overlap
  /-- Raised by the fetch: the request's bytes are incomplete. Safe. -/
  | truncatedRequest
  /-- Raised by the fetch: the request's bytes stand for no operation. Safe. -/
  | reservedRequest (code : Byte)
  /-- Raised by the fetch: no transition of R90 applies; no reachable state raises it (R91). Safe. -/
  | noTransition
deriving DecidableEq, Repr

/-- One end of one link (10_state.md R39), with its two parameters, its output traces, and what its
environment will do. -/
structure State where
  /-- `SYNC1_VAL` of this block; no step changes it (00_scope.md R8). -/
  sync1Val : Byte
  /-- `SYNC2_VAL` of this block; no step changes it (00_scope.md R8). -/
  sync2Val : Byte
  /-- `dec.state`, the sequencer (R21). -/
  state : DecState
  /-- `dec.payloadPosition` (R23). -/
  payloadPosition : Byte
  /-- `dec.previousId` (R24). -/
  previousId : Byte
  /-- `dec.errors` (R25). -/
  errors : Byte
  /-- `dec.buffer.command` (R29). -/
  bufCommand : Byte
  /-- `dec.buffer.id` (R30). -/
  bufId : Byte
  /-- `dec.buffer.payloadSize` (R31). -/
  bufPayloadSize : Byte
  /-- `dec.buffer.payload[0..63]` (R32). -/
  payload : Memory
  /-- `dec.callback` (R33); none before the first INIT (R241). -/
  callback : Option Handler
  /-- `enc.txId` (R34). -/
  txId : Byte
  /-- The incoming stream as consumed so far, oldest first (20_memory.md R54). -/
  received : List Byte
  /-- The messages delivered so far, oldest first (00_scope.md R13 a). -/
  delivered : List Delivery
  /-- The transport writes so far, oldest first (R13 b). -/
  writes : List (List Byte)
  /-- The results of the TRANSMITs so far, oldest first (R13 c). -/
  results : List TxResult
  /-- The model's own field: the requests the environment will make, as bytes (log entry 11). -/
  requests : List Byte
  /-- The model's own field: what the handler does at each coming delivery (log entry 9). -/
  reactions : List (List HandlerCall)
deriving DecidableEq, Repr

/-- The context in which the next received byte is read (30_encoding.md R90). -/
def State.ctx (s : State) : Ctx :=
  { sync1Val := s.sync1Val, sync2Val := s.sync2Val, state := s.state,
    payloadPosition := s.payloadPosition, payloadSize := s.bufPayloadSize }

/-- The block after INIT with the given sync values (40_init.md R110, 10_state.md R39): the sequencer
at SYNC_1, the counters 0, `previousId` and `txId` 0 (D4, D11); the buffer, which the spec leaves
unspecified, holds zeros (log entries 4, 5) and the handler is number 0 (log entry 8). -/
def State.resetWith (sync1 sync2 : Byte) : State :=
  { sync1Val := sync1, sync2Val := sync2, state := .sync1, payloadPosition := 0#8,
    previousId := 0#8, errors := 0#8, bufCommand := 0#8, bufId := 0#8, bufPayloadSize := 0#8,
    payload := [], callback := some ⟨0#8⟩, txId := 0#8, received := [], delivered := [],
    writes := [], results := [], requests := [], reactions := [] }

/-- The machine right after reset (70_reset_and_hazards.md R240, R242), the sync values open. -/
def State.reset : State := State.resetWith Config.sync1Val Config.sync2Val

end Sys2Proof.Machine
end

