-- ==== Sys2Proof/Machine/Flags.lean ====
section
/-! DEFINITION. The arithmetic of the counters. The block has no flags or condition codes
(10_state.md R35): its only conditions are unsigned comparisons (41_decoder.md R146, 43_encoder.md
R177), and its only special arithmetic is `inc_sat` and the wrap of the id. -/

namespace Sys2Proof.Machine

/-- `ERR_MAX = 2^ERR_WIDTH - 1` with `ERR_WIDTH = 8` (00_scope.md R8; D2, log entry 2). -/
def errMax : Byte := 255#8

/-- `inc_sat` (10_state.md R27): one more, staying at `ERR_MAX`. -/
def incSat (e : Byte) : Byte := if e = errMax then errMax else e + 1#8

/-- `(txId + 1) mod 256` (43_encoder.md R164). -/
def nextId (t : Byte) : Byte := t + 1#8

/-- `payloadPosition + 1` (41_decoder.md R146). -/
def nextPosition (p : Byte) : Byte := p + 1#8

/-- The number of attempts, `1 + retries`, which does not wrap (43_encoder.md R171). -/
def attempts (retries : Byte) : Nat := 1 + retries.toNat

end Sys2Proof.Machine
end

