-- ==== Sys2Proof/Machine/Operands.lean ====
section
/-! DEFINITION. The operand forms: reading the message out of the buffer, the payload operand of
TRANSMIT, and the frame of a message. -/

namespace Sys2Proof.Machine

/-- What an index of the payload buffer that nothing has written reads as (DESIGN CHOICE, log entry
5: the spec leaves it unspecified). -/
def Memory.unlisted : Byte := 0#8

/-- `MemRead(addr, 1)` (00_scope.md R11). -/
def memRead : Memory → Nat → Byte
  | [], _ => Memory.unlisted
  | (x, v) :: rest, a => if x = a then v else memRead rest a

/-- `payload[0..n)` (00_scope.md R9). -/
def memSlice (m : Memory) (n : Nat) : List Byte := (List.range n).map (memRead m)

/-- `message(dec.buffer)` (41_decoder.md R137): the header fields and `payload[0..payloadSize)`. -/
def message (s : State) : Message :=
  { command := s.bufCommand, id := s.bufId, payloadSize := s.bufPayloadSize,
    payload := memSlice s.payload s.bufPayloadSize.toNat }

/-- `frame(m)` (30_encoding.md R83, 43_encoder.md R165). -/
def frameBytes (s : State) (m : Message) : List Byte :=
  [s.sync1Val, s.sync2Val, m.command, m.id, m.payloadSize] ++ m.payload

/-- The message of an accepted call: the fresh id is `enc.txId`, the payload operand's bytes at and
beyond `payloadSize` are not read (43_encoder.md R163, R164, R172). -/
def txMessage (tx : TxCall) (s : State) : Message :=
  { command := tx.command, id := s.txId, payloadSize := tx.payloadSize,
    payload := tx.payload.take tx.payloadSize.toNat }

/-- R172: the payload operand supplies at least `payloadSize` bytes. -/
def payloadSupplied (tx : TxCall) : Bool := tx.payloadSize.toNat ≤ tx.payload.length

/-- The six items of a status report in the order of 44_command_vocabulary.md R184; the sixth is the
`errors` register as it is when the report is built. -/
def statusReport (values : StatusValues) (s : State) : List (StatusItem × Nat) :=
  [(.profileCount, values.profileCount), (.currentProfile, values.currentProfile),
   (.onOffFlag, values.onOffFlag), (.reactiveFlag, values.reactiveFlag),
   (.brightness, values.brightness), (.errorCount, s.errors.toNat)]

/-- The TRANSMIT call that sends a status report built in this state, in the open layout (R184, log
entry 27). -/
def statusCall (values : StatusValues) (retries : Byte) (s : State) : TxCall :=
  { command := Config.cmdCode .status
    payload := (Config.statusLayout (statusReport values s)).toList
    payloadSize := BitVec.ofNat 8 (Config.statusSize (statusReport values s)).val
    retries }

end Sys2Proof.Machine
end

