-- ==== Sys2Proof/Machine/Ops.lean ====
section
/-! DEFINITION. The named operations over the registers and the buffer, the absorption of a framing
error (60_exceptions.md R210), frame completion with its callback (41_decoder.md R136 to R139), and
TRANSMIT as one operation (43_encoder.md R160). -/

namespace Sys2Proof.Machine

/-- What an operation gives. -/
abbrev Result := Host.Outcome State Fault Refusal

/-- Do `f` after `r`, if `r` gave a next state. -/
def andThen (r : Result) (f : State → Result) : Result :=
  match r with
  | .next s => f s
  | .fault e => .fault e
  | .refused e => .refused e

/-! ## The payload buffer -/

/-- Write one byte, keeping the canonical form. -/
def memWrite : Memory → Nat → Byte → Memory
  | [], a, v => if v = Memory.unlisted then [] else [(a, v)]
  | (x, w) :: rest, a, v =>
    if a < x then (if v = Memory.unlisted then (x, w) :: rest else (a, v) :: (x, w) :: rest)
    else if a = x then (if v = Memory.unlisted then rest else (a, v) :: rest)
    else (x, w) :: memWrite rest a v

/-- Every index of the list is above `a`, below 64 and rising, and no byte is the unlisted one. -/
def Memory.risesFrom : Nat → Memory → Bool
  | _, [] => true
  | a, (x, v) :: rest =>
    decide (a ≤ x) && decide (x < Config.maxPayloadSize) && decide (v ≠ Memory.unlisted)
      && Memory.risesFrom (x + 1) rest

/-- The canonical form of the payload buffer. -/
def Memory.wf (m : Memory) : Bool := Memory.risesFrom 0 m

/-! ## Named updates of the registers -/

/-- `dec.state <- st`. -/
def goTo (st : DecState) (s : State) : State := { s with state := st }

/-- The byte of a CONSUME joins the consumed stream (20_memory.md R54). -/
def noteByte (b : Byte) (s : State) : State := { s with received := s.received ++ [b] }

/-- `dec.buffer.command <- b` (R29). -/
def setCommand (b : Byte) (s : State) : State := { s with bufCommand := b }

/-- `dec.buffer.id <- b` (R30). -/
def setId (b : Byte) (s : State) : State := { s with bufId := b }

/-- `dec.buffer.payloadSize <- b` (R31). -/
def setSize (b : Byte) (s : State) : State := { s with bufPayloadSize := b }

/-- `dec.payloadPosition <- p` (R23). -/
def setPosition (p : Byte) (s : State) : State := { s with payloadPosition := p }

/-- The buffer's new contents (R32). -/
def setPayload (m : Memory) (s : State) : State := { s with payload := m }

/-- `dec.previousId <- dec.buffer.id` (R24). -/
def recordId (s : State) : State := { s with previousId := s.bufId }

/-- What the environment asks next. -/
def setRequests (bs : List Byte) (s : State) : State := { s with requests := bs }

/-- `raise FramingError(kind)`: the whole absorption of a framing error, two writes in this order;
the kind leaves no trace (60_exceptions.md R206, R210). -/
def raiseFramingError (_kind : FramingError) (s : State) : State :=
  { s with errors := incSat s.errors, state := .sync1 }

/-- INIT's writes (40_init.md R110); the buffer is not written (R111). -/
def initialise (h : Handler) (s : State) : State :=
  { s with callback := some h, errors := 0#8, payloadPosition := 0#8, previousId := 0#8,
           state := .sync1, txId := 0#8 }

/-! ## Conditions of use -/

/-- Every operation but INIT needs an INIT before it (70_reset_and_hazards.md R241). -/
def whenInitialised (s : State) (f : State → Result) : Result :=
  match s.callback with
  | none => .refused .beforeInit
  | some _ => f s

/-! ## TRANSMIT -/

/-- TRANSMIT.REJECT's effect: the result and nothing else (43_encoder.md R162). -/
def rejectCall (s : State) : State := { s with results := s.results ++ [.errOversize] }

/-- TRANSMIT.OK's effect: the id is used and advanced, and the identical frame is handed to the
transport `1 + retries` times (43_encoder.md R163 to R168). -/
def acceptCall (tx : TxCall) (s : State) : State :=
  { s with
    txId := nextId s.txId
    writes := s.writes ++ List.replicate (attempts tx.retries) (frameBytes s (txMessage tx s))
    results := s.results ++ [.ok] }

/-- TRANSMIT (43_encoder.md R160); a payload operand too short is refused (R172). -/
def transmit (tx : TxCall) (s : State) : Result :=
  if isOversize tx.payloadSize then .next (rejectCall s)
  else if payloadSupplied tx then .next (acceptCall tx s)
  else .refused .shortPayload

/-! ## Frame completion and the callback -/

/-- One call the handler makes while it is invoked (41_decoder.md R138, 60_exceptions.md R219). -/
def runCall (c : HandlerCall) (s : State) : Result :=
  match c with
  | .transmit tx => transmit tx s
  | .reportStatus values retries => transmit (statusCall values retries s) s
  | .consume _ => .refused .reentrantCall
  | .onSilence => .refused .reentrantCall
  | .init _ => .refused .reentrantCall
  | .writeBuffer _ _ => .refused .handlerWroteBuffer

/-- The handler's calls, in order. -/
def runCalls : List HandlerCall → State → Result
  | [], s => .next s
  | c :: cs, s => andThen (runCall c s) (runCalls cs)

/-- What the handler does at the coming delivery; nothing if the environment says nothing. -/
def nextCalls (s : State) : List HandlerCall := s.reactions.headD []

/-- Whether a call is a TRANSMIT. -/
def callTransmits : HandlerCall → Bool
  | .transmit _ => true
  | .reportStatus _ _ => true
  | .consume _ => false
  | .onSilence => false
  | .init _ => false
  | .writeBuffer _ _ => false

/-- Whether the handler transmits at the coming delivery. -/
def handlerTransmits (s : State) : Bool := (nextCalls s).any callTransmits

/-- Whether a byte completes a frame: its row is one of the two that COMPLETE is entered from (R136). -/
def completesFrame (b : Byte) (s : State) : Bool :=
  match s.state with
  | .sync1 => false
  | .sync2 => false
  | .cmd => false
  | .id => false
  | .payloadSize => b = 0#8
  | .payload => s.payloadPosition.toNat + 1 = s.bufPayloadSize.toNat

/-- The invocation as it is recorded: the message by value, its place, what the handler sees
(41_decoder.md R137, R139). -/
def delivery (h : Handler) (s : State) : Delivery :=
  { handler := h, message := message s, position := s.received.length, seenState := s.state,
    seenPayloadPosition := s.payloadPosition, seenPreviousId := s.previousId,
    seenErrors := s.errors }

/-- The message goes to the handler, whose reaction is used up. -/
def recordDelivery (h : Handler) (s : State) : State :=
  { s with delivered := s.delivered ++ [delivery h s], reactions := s.reactions.tail }

/-- `deliver` (41_decoder.md R137): the bound handler is invoked once, synchronously, and makes its
calls before it returns. -/
def deliver (s : State) : Result :=
  match s.callback with
  | none => .refused .beforeInit
  | some h => runCalls (nextCalls s) (recordDelivery h s)

/-- COMPLETE (41_decoder.md R136): `previousId`, then `deliver`, then `state`. -/
def complete (s : State) : Result :=
  andThen (deliver (recordId s)) fun t => .next (goTo .sync1 t)

/-! ## The payload store -/

/-- `MemWrite(payloadPosition, 1, b)` and the increment, in this order (41_decoder.md R135). An index
outside 0 to 63 faults (20_memory.md R52). -/
def storePayload (b : Byte) (s : State) : Result :=
  if s.payloadPosition.toNat < Config.maxPayloadSize then
    .next (setPosition (nextPosition s.payloadPosition)
      (setPayload (memWrite s.payload s.payloadPosition.toNat b) s))
  else .fault (.payloadIndexOutOfRange s.payloadPosition.toNat)

/-! ## CONSUME in one piece -/

/-- The automaton of 41_decoder.md R121, after the byte has joined the stream. -/
def consumeByte (b : Byte) (s : State) : Result :=
  match s.state with
  | .sync1 => .next (if b = s.sync1Val then goTo .sync2 s else s)
  | .sync2 =>
    .next (if b = s.sync2Val then goTo .cmd s
      else if b = s.sync1Val then goTo .sync2 (raiseFramingError .sync2 s)
      else raiseFramingError .sync2 s)
  | .cmd => .next (goTo .id (setCommand b s))
  | .id => .next (goTo .payloadSize (setId b s))
  | .payloadSize =>
    if isOversize b then .next (raiseFramingError .oversize (setSize b s))
    else if b = 0#8 then complete (setPosition 0#8 (setSize b s))
    else .next (goTo .payload (setPosition 0#8 (setSize b s)))
  | .payload =>
    andThen (storePayload b s) fun t =>
      if t.payloadPosition = t.bufPayloadSize then complete t else .next t

/-- CONSUME (41_decoder.md R120, R121). -/
def consume (b : Byte) (s : State) : Result :=
  whenInitialised s fun s => consumeByte b (noteByte b s)

/-- The bytes of a list consumed one after the other, with nothing in between. -/
def consumeAll : List Byte → State → Result
  | [], s => .next s
  | b :: bs, s => andThen (consume b s) (consumeAll bs)

/-- A row's effect where its condition holds; elsewhere the row cannot occur (log entry 19). -/
def onlyWhen (mnemonic : String) (condition : Bool) (s : State) (f : State → Result) : Result :=
  whenInitialised s fun s => if condition then f s else .refused (.whenNotMet mnemonic)

end Sys2Proof.Machine
end

