-- ==== Sys2Proof/Machine/Lifecycle.lean ====
section
/-! DEFINITION. INIT (40_init.md) and ON_SILENCE (42_silence.md). -/

namespace Sys2Proof.Machine

/-- INIT (R110, R112); without a real handler it is refused (R113). -/
def execInit (handler : Option Handler) (s : State) : Result :=
  match handler with
  | some h => .next (initialise h s)
  | none => .refused .initWithoutHandler

/-- ON_SILENCE (42_silence.md R150): `state` and nothing else. -/
def execOnSilence (s : State) : Result :=
  whenInitialised s fun s => .next (goTo .sync1 s)

end Sys2Proof.Machine
end

