-- ==== Sys2Proof/Machine/Receive.lean ====
section
/-! DEFINITION. CONSUME, its twelve transitions, each from its own rule of 41_decoder.md, and the
wire frame. -/

namespace Sys2Proof.Machine

/-- CONSUME (R120, R121). -/
def execConsume (b : Byte) (s : State) : Result := consume b s

/-- RX.SYNC1.MATCH (R122). -/
def execRxSync1Match (b : Byte) (s : State) : Result :=
  onlyWhen "RX.SYNC1.MATCH" (s.state = .sync1 && b = s.sync1Val) s fun s =>
    .next (goTo .sync2 (noteByte b s))

/-- RX.SYNC1.MISS (R123): no register is written. -/
def execRxSync1Miss (b : Byte) (s : State) : Result :=
  onlyWhen "RX.SYNC1.MISS" (s.state = .sync1 && b ≠ s.sync1Val) s fun s =>
    .next (noteByte b s)

/-- RX.SYNC2.MATCH (R124). -/
def execRxSync2Match (b : Byte) (s : State) : Result :=
  onlyWhen "RX.SYNC2.MATCH" (s.state = .sync2 && b = s.sync2Val) s fun s =>
    .next (goTo .cmd (noteByte b s))

/-- RX.SYNC2.MISS.RESYNC (R125): the error is counted and the byte is the new first sync byte. -/
def execRxSync2MissResync (b : Byte) (s : State) : Result :=
  onlyWhen "RX.SYNC2.MISS.RESYNC" (s.state = .sync2 && b ≠ s.sync2Val && b = s.sync1Val) s fun s =>
    .next (goTo .sync2 (raiseFramingError .sync2 (noteByte b s)))

/-- RX.SYNC2.MISS.DROP (R126). -/
def execRxSync2MissDrop (b : Byte) (s : State) : Result :=
  onlyWhen "RX.SYNC2.MISS.DROP" (s.state = .sync2 && b ≠ s.sync2Val && b ≠ s.sync1Val) s fun s =>
    .next (raiseFramingError .sync2 (noteByte b s))

/-- RX.CMD (R128). -/
def execRxCmd (command : Byte) (s : State) : Result :=
  onlyWhen "RX.CMD" (s.state = .cmd) s fun s =>
    .next (goTo .id (setCommand command (noteByte command s)))

/-- RX.ID (R129). -/
def execRxId (id : Byte) (s : State) : Result :=
  onlyWhen "RX.ID" (s.state = .id) s fun s =>
    .next (goTo .payloadSize (setId id (noteByte id s)))

/-- RX.SIZE.ZERO (R130). -/
def execRxSizeZero (s : State) : Result :=
  onlyWhen "RX.SIZE.ZERO" (s.state = .payloadSize) s fun s =>
    complete (setPosition 0#8 (setSize 0#8 (noteByte 0#8 s)))

/-- RX.SIZE.OK (R131). -/
def execRxSizeOk (n : Byte) (s : State) : Result :=
  onlyWhen "RX.SIZE.OK" (s.state = .payloadSize && 1 ≤ n.toNat && n.toNat ≤ 64) s fun s =>
    .next (goTo .payload (setPosition 0#8 (setSize n (noteByte n s))))

/-- RX.SIZE.OVER (R132): the byte is stored, the error counted, the byte not re-examined. -/
def execRxSizeOver (n : Byte) (s : State) : Result :=
  onlyWhen "RX.SIZE.OVER" (s.state = .payloadSize && 65 ≤ n.toNat) s fun s =>
    .next (raiseFramingError .oversize (setSize n (noteByte n s)))

/-- RX.PAYLOAD.MORE (R133). -/
def execRxPayloadMore (d : Byte) (s : State) : Result :=
  onlyWhen "RX.PAYLOAD.MORE"
    (s.state = .payload && s.payloadPosition.toNat + 1 < s.bufPayloadSize.toNat) s fun s =>
    storePayload d (noteByte d s)

/-- RX.PAYLOAD.LAST (R134). -/
def execRxPayloadLast (d : Byte) (s : State) : Result :=
  onlyWhen "RX.PAYLOAD.LAST"
    (s.state = .payload && s.payloadPosition.toNat + 1 = s.bufPayloadSize.toNat) s fun s =>
    andThen (storePayload d (noteByte d s)) complete

/-- FRAME (30_encoding.md R81): the decoder accepts it byte by byte, so its meaning is one CONSUME
per byte in wire order, with no other operation in between (log entry 17). -/
def execFrame (sy1 sy2 command id n : Byte) (payload : List Byte) (s : State) : Result :=
  consumeAll ([sy1, sy2, command, id, n] ++ payload) s

end Sys2Proof.Machine
end

