-- ==== Sys2Proof/Machine/Transmit.lean ====
section
/-! DEFINITION. The two forms of TRANSMIT (43_encoder.md, 30_encoding.md R89). -/

namespace Sys2Proof.Machine

/-- TRANSMIT.OK (R163), the form for `payloadSize <= 64`. -/
def execTransmitOk (command : Byte) (payload : List Byte) (payloadSize retries : Byte) (s : State) :
    Result :=
  onlyWhen "TRANSMIT.OK" (!isOversize payloadSize) s fun s =>
    transmit ⟨command, payload, payloadSize, retries⟩ s

/-- TRANSMIT.REJECT (R162), the form for `payloadSize > 64`; the payload operand is not read. -/
def execTransmitReject (command : Byte) (payload : List Byte) (payloadSize retries : Byte)
    (s : State) : Result :=
  onlyWhen "TRANSMIT.REJECT" (isOversize payloadSize) s fun s =>
    transmit ⟨command, payload, payloadSize, retries⟩ s

end Sys2Proof.Machine
end

