-- ==== Sys2Proof/Machine/Vocabulary.lean ====
section
/-! DEFINITION. The vocabulary rows (44_command_vocabulary.md). A vocabulary row is a value of the
COMMAND byte; the block consumes it like any byte and distinguishes none (30_encoding.md R86, R98,
R173, R180; log entry 18). -/

namespace Sys2Proof.Machine

/-- A command byte on the incoming stream: in state `CMD` it is stored as the command whatever its
value (41_decoder.md R128); out of alignment it is taken as whatever field `state` says (20_memory.md
R58). -/
def commandByte (c : Byte) (s : State) : Result := consume c s

/-- VOC.M2L.LED_ON (R182). -/
def execVocM2lLedOn (c : Byte) (s : State) : Result := commandByte c s

/-- VOC.M2L.LED_OFF (R182). -/
def execVocM2lLedOff (c : Byte) (s : State) : Result := commandByte c s

/-- VOC.M2L.PROFILE_SET (R182). -/
def execVocM2lProfileSet (c : Byte) (s : State) : Result := commandByte c s

/-- VOC.M2L.PROFILE_NEXT (R182). -/
def execVocM2lProfileNext (c : Byte) (s : State) : Result := commandByte c s

/-- VOC.M2L.PROFILE_PREV (R182). -/
def execVocM2lProfilePrev (c : Byte) (s : State) : Result := commandByte c s

/-- VOC.M2L.INTENSITY_NEXT (R182). -/
def execVocM2lIntensityNext (c : Byte) (s : State) : Result := commandByte c s

/-- VOC.M2L.INTENSITY_SET (R182). -/
def execVocM2lIntensitySet (c : Byte) (s : State) : Result := commandByte c s

/-- VOC.M2L.ANIMATION_SPEED (R182). -/
def execVocM2lAnimationSpeed (c : Byte) (s : State) : Result := commandByte c s

/-- VOC.M2L.MASK_KEY (R182). -/
def execVocM2lMaskKey (c : Byte) (s : State) : Result := commandByte c s

/-- VOC.M2L.MASK_ROW (R182). -/
def execVocM2lMaskRow (c : Byte) (s : State) : Result := commandByte c s

/-- VOC.M2L.MASK_MONO (R182). -/
def execVocM2lMaskMono (c : Byte) (s : State) : Result := commandByte c s

/-- VOC.M2L.STATUS_QUERY (R182). -/
def execVocM2lStatusQuery (c : Byte) (s : State) : Result := commandByte c s

/-- VOC.M2L.KEY_DOWN (R182). -/
def execVocM2lKeyDown (c : Byte) (s : State) : Result := commandByte c s

/-- VOC.M2L.KEY_BLINK (R182). -/
def execVocM2lKeyBlink (c : Byte) (s : State) : Result := commandByte c s

/-- VOC.M2L.IAP (R182). -/
def execVocM2lIap (c : Byte) (s : State) : Result := commandByte c s

/-- VOC.L2M.DEBUG (R183). -/
def execVocL2mDebug (c : Byte) (s : State) : Result := commandByte c s

/-- VOC.L2M.STATUS (R183). -/
def execVocL2mStatus (c : Byte) (s : State) : Result := commandByte c s

end Sys2Proof.Machine
end

