-- ==== Sys2Proof/Machine/Dispatch.lean ====
section
/-! DEFINITION. One arm per row of spec/opcode_table.json, each one call of its meaning. -/

namespace Sys2Proof.Machine

def exec (i : Instr) (s : State) : Host.Outcome State Fault Refusal :=
  match i with
  | .init h => Sys2Proof.Machine.execInit h s
  | .consume b => Sys2Proof.Machine.execConsume b s
  | .onSilence => Sys2Proof.Machine.execOnSilence s
  | .transmitOk c p n r => Sys2Proof.Machine.execTransmitOk c p n r s
  | .transmitReject c p n r => Sys2Proof.Machine.execTransmitReject c p n r s
  | .rxSync1Match b => Sys2Proof.Machine.execRxSync1Match b s
  | .rxSync1Miss b => Sys2Proof.Machine.execRxSync1Miss b s
  | .rxSync2Match b => Sys2Proof.Machine.execRxSync2Match b s
  | .rxSync2MissResync b => Sys2Proof.Machine.execRxSync2MissResync b s
  | .rxSync2MissDrop b => Sys2Proof.Machine.execRxSync2MissDrop b s
  | .rxCmd b => Sys2Proof.Machine.execRxCmd b s
  | .rxId b => Sys2Proof.Machine.execRxId b s
  | .rxSizeZero => Sys2Proof.Machine.execRxSizeZero s
  | .rxSizeOk b => Sys2Proof.Machine.execRxSizeOk b s
  | .rxSizeOver b => Sys2Proof.Machine.execRxSizeOver b s
  | .rxPayloadMore b => Sys2Proof.Machine.execRxPayloadMore b s
  | .rxPayloadLast b => Sys2Proof.Machine.execRxPayloadLast b s
  | .frame sy1 sy2 c d n p => Sys2Proof.Machine.execFrame sy1 sy2 c d n p s
  | .vocM2lLedOn b => Sys2Proof.Machine.execVocM2lLedOn b s
  | .vocM2lLedOff b => Sys2Proof.Machine.execVocM2lLedOff b s
  | .vocM2lProfileSet b => Sys2Proof.Machine.execVocM2lProfileSet b s
  | .vocM2lProfileNext b => Sys2Proof.Machine.execVocM2lProfileNext b s
  | .vocM2lProfilePrev b => Sys2Proof.Machine.execVocM2lProfilePrev b s
  | .vocM2lIntensityNext b => Sys2Proof.Machine.execVocM2lIntensityNext b s
  | .vocM2lIntensitySet b => Sys2Proof.Machine.execVocM2lIntensitySet b s
  | .vocM2lAnimationSpeed b => Sys2Proof.Machine.execVocM2lAnimationSpeed b s
  | .vocM2lMaskKey b => Sys2Proof.Machine.execVocM2lMaskKey b s
  | .vocM2lMaskRow b => Sys2Proof.Machine.execVocM2lMaskRow b s
  | .vocM2lMaskMono b => Sys2Proof.Machine.execVocM2lMaskMono b s
  | .vocM2lStatusQuery b => Sys2Proof.Machine.execVocM2lStatusQuery b s
  | .vocM2lKeyDown b => Sys2Proof.Machine.execVocM2lKeyDown b s
  | .vocM2lKeyBlink b => Sys2Proof.Machine.execVocM2lKeyBlink b s
  | .vocM2lIap b => Sys2Proof.Machine.execVocM2lIap b s
  | .vocL2mDebug b => Sys2Proof.Machine.execVocL2mDebug b s
  | .vocL2mStatus b => Sys2Proof.Machine.execVocL2mStatus b s

end Sys2Proof.Machine
end

