-- ==== Sys2Proof/Machine/Fetch.lean ====
section
/-! DEFINITION. Fetching the environment's next request, and placing one (log entries 11, 12, 13). -/

namespace Sys2Proof.Machine

/-- What the next request is. -/
inductive Fetched where
  /-- Nothing is asked, or no strobe is asserted: the block rests. -/
  | idle (s : State)
  /-- An instruction, and the state with its bytes taken. -/
  | run (i : Instr) (s : State)
  /-- No step. -/
  | refuse (r : Refusal)

/-- The refusal of bytes that are no request. -/
def refusalOf : DecodeError → Refusal
  | .truncated => .truncatedRequest
  | .noStrobe => .reservedRequest 0#8
  | .overlap => .overlap
  | .reservedLead lead => .reservedRequest lead
  | .reservedHandlerFlag flag => .reservedRequest flag
  | .noTransition => .noTransition

/-- Two TRANSMITs at once on the encoder: a `tx_req` that accompanies the byte of a frame's completion
while the handler transmits in that delivery (43_encoder.md R174, 60_exceptions.md R215). -/
def overlappingTransmits (s : State) : Bool :=
  match s.requests with
  | lead :: rest =>
    lead = 0x05#8 && rest.head?.any (fun b => completesFrame b s) && handlerTransmits s
  | [] => false

/-- The next request of the environment, decoded in the state the last operation left (20_memory.md
R63). A byte 0 asserts no strobe and is passed over. -/
def fetch (s : State) : Fetched :=
  match s.requests with
  | [] => .idle s
  | lead :: rest =>
    if lead = 0#8 then .idle (setRequests rest s)
    else if overlappingTransmits s then .refuse .overlap
    else
      match decode s.ctx (lead :: rest) with
      | .ok (i, rest') => .run i (setRequests rest' s)
      | .error e => .refuse (refusalOf e)

/-- The state in which a table word is the next request: its bytes are put before what the
environment asks, and for a received byte the sequencer is put where the byte is read, as
`decodeTableWord` reads it (10_state.md R35: the sequencer is the block's program counter). -/
def placeWord (s : State) (nbits w : Nat) : State :=
  let t := setRequests (tableRequest nbits w ++ s.requests) s
  if isRxTableWord nbits w then goTo .payloadSize t else t

end Sys2Proof.Machine
end

