-- ==== Sys2Proof/Machine/Step.lean ====
section
/-! DEFINITION. One step: the environment's next request is taken and executed whole, since every
operation is atomic (00_scope.md R7, 20_memory.md R63). With nothing asked the block rests: it never
halts (70_reset_and_hazards.md R258). -/

namespace Sys2Proof.Machine

def step (s : State) : Host.Outcome State Fault Refusal :=
  match fetch s with
  | .idle t => .next t
  | .run i t => exec i t
  | .refuse r => .refused r

/-- `s` with the table word `w` as its next request. -/
def State.withFetchWord (s : State) (nbits w : Nat) : State := placeWord s nbits w

end Sys2Proof.Machine
end

