-- ==== Sys2Proof/Machine/Watchdog.lean ====
section
/-! DEFINITION. The reference watchdog of 60_exceptions.md R223, as a part of the environment: the
block has no timer (R221), so the watchdog turns a timed line into the requests the block is given
(log entry 15). It is informative in the spec, and no meaning and no step reads it. -/

namespace Sys2Proof.Machine

/-- What happens on the line as the watchdog sees it: a byte, or a tick of its time base. -/
inductive LineEvent where
  | byte (b : Byte)
  | tick
deriving DecidableEq, Repr

/-- `idle` after a tick (R223): it counts up to the threshold and stays there. -/
def tickIdle (ticks idle : Nat) : Nat := if idle < ticks then idle + 1 else idle

/-- The watchdog fires on the tick on which `idle` reaches the threshold, once per silent period
(R223). With a threshold of 0 it never fires (DESIGN CHOICE, log entry 15: R223 does not say). -/
def tickFires (ticks idle : Nat) : Bool := decide (idle < ticks) && decide (idle + 1 = ticks)

/-- The requests a timed line gives: a CONSUME for each byte, which clears `idle`, and an ON_SILENCE
where the watchdog fires. -/
def watchdogRequests (ticks : Nat) : Nat → List LineEvent → List Byte
  | _, [] => []
  | _, .byte b :: rest => encode (.consume b) ++ watchdogRequests ticks 0 rest
  | idle, .tick :: rest =>
    (if tickFires ticks idle then encode .onSilence else [])
      ++ watchdogRequests ticks (tickIdle ticks idle) rest

/-- The line heard by the watchdog with the open threshold, from a cleared `idle` (DESIGN CHOICE, log
entry 15: R223 gives `idle` no first value). -/
def lineRequests (line : List LineEvent) : List Byte :=
  watchdogRequests Config.silenceTicks 0 line

end Sys2Proof.Machine
end

