-- ==== Sys2Proof/Safety.lean ====
section
/-! DEFINITION. What counts as a sound state and a safe step: the invariants of 10_state.md R37. -/

namespace Sys2Proof

open Sys2Proof.Machine

/-- INV1 (R37): resting in `PAYLOAD`, the size is 1 to 64 and the position below it. -/
def PayloadBound (s : State) : Prop :=
  s.state = .payload →
    1 ≤ s.bufPayloadSize.toNat ∧ s.bufPayloadSize.toNat ≤ 64 ∧
      s.payloadPosition.toNat < s.bufPayloadSize.toNat

/-- INV1 and INV2 (R37), and the payload buffer in its canonical form with every index below 64
(INV5: a write outside would leave an index outside). -/
structure Inv (s : State) : Prop where
  payloadBound : PayloadBound s
  positionBound : s.payloadPosition.toNat ≤ 64
  payloadWf : Memory.wf s.payload = true

/-- The bytes of the frame under assembly that the buffer holds, in the order they came, by the
state of the sequencer (R37 INV3). -/
def partialFrame (s : State) : List Byte :=
  match s.state with
  | .sync1 => []
  | .sync2 => []
  | .cmd => []
  | .id => [s.bufCommand]
  | .payloadSize => [s.bufCommand, s.bufId]
  | .payload =>
    [s.bufCommand, s.bufId, s.bufPayloadSize] ++ memSlice s.payload s.payloadPosition.toNat

/-- A message's bytes as they stand on the wire after the sync pair. -/
def messageBytes (m : Message) : List Byte := [m.command, m.id, m.payloadSize] ++ m.payload

/-- A delivered message is legal and is exactly the last `3 + payloadSize` bytes of the stream consumed
up to the byte that completed it (R37 INV4). -/
def DeliveryFaithful (received : List Byte) (d : Delivery) : Prop :=
  d.message.payloadSize.toNat ≤ 64 ∧ d.message.payload.length = d.message.payloadSize.toNat ∧
    d.position ≤ received.length ∧ messageBytes d.message <:+ received.take d.position

/-- INV3 and INV4 (R37): the frame under assembly is the end of the consumed stream, and every
delivered message was in it. -/
structure StreamInv (s : State) : Prop where
  assembling : partialFrame s <:+ s.received
  delivered : ∀ d ∈ s.delivered, DeliveryFaithful s.received d

/-- A handler call the contract allows: a TRANSMIT that is rejected, or one whose payload operand is
long enough, as a status report's is (41_decoder.md R138, 43_encoder.md R172). -/
def allowedCall : HandlerCall → Bool
  | .transmit tx => isOversize tx.payloadSize || payloadSupplied tx
  | .reportStatus _ _ => true
  | .consume _ => false
  | .onSilence => false
  | .init _ => false
  | .writeBuffer _ _ => false

/-- The handler keeps its duties at every coming delivery (60_exceptions.md R228). -/
def HandlerDutiful (s : State) : Prop := ∀ calls ∈ s.reactions, ∀ c ∈ calls, allowedCall c = true

/-- The handler makes no calls at any coming delivery: it only takes messages. -/
def HandlerQuiet (s : State) : Prop := ∀ calls ∈ s.reactions, calls = []

/-- A step that does not fault. -/
def NoFault (r : Result) : Prop := ∀ e, r ≠ .fault e

end Sys2Proof
end

