-- ==== Sys2Proof/Certificates/Slice0/Obligations.lean ====
section
/-! DEFINITION. The statements for the provers. `received`, `delivered`, `writes` and `results` are
the output traces of 00_scope.md R13, not registers of the block: where a rule says that nothing else
is written, the statement shows the consumed byte joining `received` and every register as it was. -/

open Sys2Proof Sys2Proof.Machine

/-! ## INIT, reset, and what is refused -/

/-- 40_init.md R110: INIT's writes and nothing else, from any state, before the first INIT too. The
zeros of `previousId` and `txId` are the spec's own choice (D4, D11); R111: the buffer is not
written. -/
def Obligations.InitBindsAndClears : Prop :=
  ∀ (h : Handler) (s : State),
    exec (.init (some h)) s =
      .next { s with callback := some h, errors := 0#8, payloadPosition := 0#8,
                     previousId := 0#8, state := .sync1, txId := 0#8 }

/-- 40_init.md R113 (D20): INIT with an absent handler is refused. -/
def Obligations.InitWithoutHandlerIsRefused : Prop :=
  ∀ s : State, exec (.init none) s = .refused .initWithoutHandler

/-- 70_reset_and_hazards.md R241 (D21): before the first INIT no other operation has a step. -/
def Obligations.OperationsBeforeInitAreRefused : Prop :=
  ∀ (s : State) (i : Instr), s.callback = none → (∀ h, i ≠ .init h) →
    exec i s = .refused .beforeInit

/-- 70_reset_and_hazards.md R240, R242: reset leaves what INIT leaves. `previousId` and `txId` 0 are
the spec's own choice (D4, D11); that the handler is number 0 is the model's (log entry 8). No clause
speaks of the buffer, whose contents the spec leaves unspecified. -/
def Obligations.ResetLeavesWhatInitLeaves : Prop :=
  State.reset.state = .sync1 ∧ State.reset.errors = 0#8 ∧ State.reset.payloadPosition = 0#8 ∧
    State.reset.previousId = 0#8 ∧ State.reset.txId = 0#8 ∧
    State.reset.callback = some ⟨0#8⟩ ∧
    exec (.init (some ⟨0#8⟩)) State.reset = .next State.reset

/-! ## The twelve transitions, each also as a CONSUME -/

/-- 41_decoder.md R122. -/
def Obligations.Sync1MatchAdvances : Prop :=
  ∀ (s : State) (b : Byte), s.callback ≠ none → s.state = .sync1 → b = s.sync1Val →
    exec (.rxSync1Match b) s =
        .next { s with state := .sync2, received := s.received ++ [b] } ∧
      exec (.consume b) s =
        .next { s with state := .sync2, received := s.received ++ [b] }

/-- 41_decoder.md R123 (D10): no register is written, `errors` not either. -/
def Obligations.Sync1MissChangesNothing : Prop :=
  ∀ (s : State) (b : Byte), s.callback ≠ none → s.state = .sync1 → b ≠ s.sync1Val →
    exec (.rxSync1Miss b) s = .next { s with received := s.received ++ [b] } ∧
      exec (.consume b) s = .next { s with received := s.received ++ [b] }

/-- 41_decoder.md R124. The match is tested first, so equal sync values match too. -/
def Obligations.Sync2MatchAdvances : Prop :=
  ∀ (s : State) (b : Byte), s.callback ≠ none → s.state = .sync2 → b = s.sync2Val →
    exec (.rxSync2Match b) s =
        .next { s with state := .cmd, received := s.received ++ [b] } ∧
      exec (.consume b) s =
        .next { s with state := .cmd, received := s.received ++ [b] }

/-- 41_decoder.md R125: the error is counted once (saturating at 255: 10_state.md R27, D2, D3) and
the byte is the new first sync byte. -/
def Obligations.Sync2MissResyncs : Prop :=
  ∀ (s : State) (b : Byte), s.callback ≠ none → s.state = .sync2 → b ≠ s.sync2Val →
    b = s.sync1Val →
    exec (.rxSync2MissResync b) s =
        .next { s with errors := if s.errors = 255#8 then 255#8 else s.errors + 1#8,
                       state := .sync2, received := s.received ++ [b] } ∧
      exec (.consume b) s =
        .next { s with errors := if s.errors = 255#8 then 255#8 else s.errors + 1#8,
                       state := .sync2, received := s.received ++ [b] }

/-- 41_decoder.md R126 (saturation: R27, D2, D3). -/
def Obligations.Sync2MissDrops : Prop :=
  ∀ (s : State) (b : Byte), s.callback ≠ none → s.state = .sync2 → b ≠ s.sync2Val →
    b ≠ s.sync1Val →
    exec (.rxSync2MissDrop b) s =
        .next { s with errors := if s.errors = 255#8 then 255#8 else s.errors + 1#8,
                       state := .sync1, received := s.received ++ [b] } ∧
      exec (.consume b) s =
        .next { s with errors := if s.errors = 255#8 then 255#8 else s.errors + 1#8,
                       state := .sync1, received := s.received ++ [b] }

/-- 41_decoder.md R128: any byte, a sync value too, is stored as the command. -/
def Obligations.CmdStoresAnyByte : Prop :=
  ∀ (s : State) (b : Byte), s.callback ≠ none → s.state = .cmd →
    exec (.rxCmd b) s =
        .next { s with bufCommand := b, state := .id, received := s.received ++ [b] } ∧
      exec (.consume b) s =
        .next { s with bufCommand := b, state := .id, received := s.received ++ [b] }

/-- 41_decoder.md R129: the id is stored; `previousId` is not written. -/
def Obligations.IdIsStored : Prop :=
  ∀ (s : State) (b : Byte), s.callback ≠ none → s.state = .id →
    exec (.rxId b) s =
        .next { s with bufId := b, state := .payloadSize, received := s.received ++ [b] } ∧
      exec (.consume b) s =
        .next { s with bufId := b, state := .payloadSize, received := s.received ++ [b] }

/-- 41_decoder.md R131: a legal size is stored and the position reset. -/
def Obligations.LegalSizeIsAccepted : Prop :=
  ∀ (s : State) (n : Byte), s.callback ≠ none → s.state = .payloadSize → 1 ≤ n.toNat →
    n.toNat ≤ 64 →
    exec (.rxSizeOk n) s =
        .next { s with bufPayloadSize := n, payloadPosition := 0#8, state := .payload,
                       received := s.received ++ [n] } ∧
      exec (.consume n) s =
        .next { s with bufPayloadSize := n, payloadPosition := 0#8, state := .payload,
                       received := s.received ++ [n] }

/-- 41_decoder.md R132 (D9: the byte is not re-examined, whatever its value; saturation: R27, D2,
D3). -/
def Obligations.OversizeIsDiscarded : Prop :=
  ∀ (s : State) (n : Byte), s.callback ≠ none → s.state = .payloadSize → 65 ≤ n.toNat →
    exec (.rxSizeOver n) s =
        .next { s with bufPayloadSize := n,
                       errors := if s.errors = 255#8 then 255#8 else s.errors + 1#8,
                       state := .sync1, received := s.received ++ [n] } ∧
      exec (.consume n) s =
        .next { s with bufPayloadSize := n,
                       errors := if s.errors = 255#8 then 255#8 else s.errors + 1#8,
                       state := .sync1, received := s.received ++ [n] }

/-- 41_decoder.md R130, R136, R137, R139 (D8: the empty frame sets `previousId`; D19: the message is
a value), for a handler that makes no call at this delivery; with calls see
`CallbackCallsActAfterTheByte`. That the delivery uses up the head of `reactions` is the model's choice
(log entry 9), and so are the traces `received` and `delivered` (log entry 14). -/
def Obligations.EmptyFrameCompletes : Prop :=
  ∀ (s : State) (h : Handler), s.callback = some h → s.state = .payloadSize → nextCalls s = [] →
    let t := { s with
      bufPayloadSize := 0#8, payloadPosition := 0#8, previousId := s.bufId, state := .sync1,
      received := s.received ++ [0#8], reactions := s.reactions.tail,
      delivered := s.delivered ++
        [{ handler := h, message := ⟨s.bufCommand, s.bufId, 0#8, []⟩,
           position := s.received.length + 1, seenState := .payloadSize,
           seenPayloadPosition := 0#8, seenPreviousId := s.bufId, seenErrors := s.errors }] }
    exec .rxSizeZero s = .next t ∧ exec (.consume 0#8) s = .next t

/-- 41_decoder.md R133: store at the old position, then increment. The premise that the position is
below 64 always holds where a run can be (10_state.md R37 INV1); see `StoreOutsideTheBufferFaults`. -/
def Obligations.PayloadByteIsStored : Prop :=
  ∀ (s : State) (d : Byte), s.callback ≠ none → s.state = .payload →
    s.payloadPosition.toNat + 1 < s.bufPayloadSize.toNat → s.payloadPosition.toNat < 64 →
    exec (.rxPayloadMore d) s =
        .next { s with payload := memWrite s.payload s.payloadPosition.toNat d,
                       payloadPosition := s.payloadPosition + 1#8,
                       received := s.received ++ [d] } ∧
      exec (.consume d) s =
        .next { s with payload := memWrite s.payload s.payloadPosition.toNat d,
                       payloadPosition := s.payloadPosition + 1#8,
                       received := s.received ++ [d] }

/-- 41_decoder.md R134, R136, R137, R139 (D8, D19), for a handler that makes no call at this
delivery: the byte is stored, the position ends at the size, and the message is the buffer's. That the
delivery uses up the head of `reactions` is the model's choice (log entry 9), and so are the traces
`received` and `delivered` (log entry 14). -/
def Obligations.LastPayloadByteCompletes : Prop :=
  ∀ (s : State) (h : Handler) (d : Byte), s.callback = some h → s.state = .payload →
    s.payloadPosition.toNat + 1 = s.bufPayloadSize.toNat → s.payloadPosition.toNat < 64 →
    nextCalls s = [] →
    let m := memWrite s.payload s.payloadPosition.toNat d
    let t := { s with
      payload := m, payloadPosition := s.payloadPosition + 1#8, previousId := s.bufId,
      state := .sync1, received := s.received ++ [d], reactions := s.reactions.tail,
      delivered := s.delivered ++
        [{ handler := h,
           message := ⟨s.bufCommand, s.bufId, s.bufPayloadSize,
             (List.range s.bufPayloadSize.toNat).map (memRead m)⟩,
           position := s.received.length + 1, seenState := .payload,
           seenPayloadPosition := s.bufPayloadSize, seenPreviousId := s.bufId,
           seenErrors := s.errors }] }
    exec (.rxPayloadLast d) s = .next t ∧ exec (.consume d) s = .next t

/-- 20_memory.md R51, 41_decoder.md R135: a payload byte changes the one element at the old position
and no other, whatever the handler does. -/
def Obligations.PayloadStoreChangesOneByte : Prop :=
  ∀ (s t : State) (i : Instr) (d : Byte), Memory.wf s.payload = true →
    i = .rxPayloadMore d ∨ i = .rxPayloadLast d → exec i s = .next t →
    memRead t.payload s.payloadPosition.toNat = d ∧
      ∀ a, a ≠ s.payloadPosition.toNat → memRead t.payload a = memRead s.payload a

/-- 20_memory.md R52, the conservative reading of an access outside 0 to 63 (log entry 6). -/
def Obligations.StoreOutsideTheBufferFaults : Prop :=
  ∀ (s : State) (d : Byte), s.callback ≠ none → s.state = .payload →
    64 ≤ s.payloadPosition.toNat →
    exec (.consume d) s = .fault (.payloadIndexOutOfRange s.payloadPosition.toNat) ∧
    (s.payloadPosition.toNat + 1 < s.bufPayloadSize.toNat →
      exec (.rxPayloadMore d) s = .fault (.payloadIndexOutOfRange s.payloadPosition.toNat)) ∧
    (s.payloadPosition.toNat + 1 = s.bufPayloadSize.toNat →
      exec (.rxPayloadLast d) s = .fault (.payloadIndexOutOfRange s.payloadPosition.toNat))

/-- 30_encoding.md R89, R90, the model's reading of a row outside its condition (log entry 19): the
twelve transitions and the two forms of TRANSMIT are refused by name where their condition fails. -/
def Obligations.RowsOutsideTheirConditionAreRefused : Prop :=
  ∀ (s : State) (b : Byte) (p : List Byte) (n r : Byte), s.callback ≠ none →
    (∀ row ∈ [(Instr.rxSync1Match b, "RX.SYNC1.MATCH"), (.rxSync1Miss b, "RX.SYNC1.MISS"),
        (.rxSync2Match b, "RX.SYNC2.MATCH"), (.rxSync2MissResync b, "RX.SYNC2.MISS.RESYNC"),
        (.rxSync2MissDrop b, "RX.SYNC2.MISS.DROP"), (.rxCmd b, "RX.CMD"), (.rxId b, "RX.ID"),
        (.rxSizeZero, "RX.SIZE.ZERO"), (.rxSizeOk b, "RX.SIZE.OK"),
        (.rxSizeOver b, "RX.SIZE.OVER"), (.rxPayloadMore b, "RX.PAYLOAD.MORE"),
        (.rxPayloadLast b, "RX.PAYLOAD.LAST")],
      Instr.wellFormed s.ctx row.1 = false → exec row.1 s = .refused (.whenNotMet row.2)) ∧
    (65 ≤ n.toNat → exec (.transmitOk b p n r) s = .refused (.whenNotMet "TRANSMIT.OK")) ∧
    (n.toNat ≤ 64 → exec (.transmitReject b p n r) s = .refused (.whenNotMet "TRANSMIT.REJECT"))

/-! ## CONSUME as a whole -/

/-- 30_encoding.md R90, R91, 41_decoder.md R120: in a sound state every byte has exactly the row the
opcode map gives, that row's condition holds, and CONSUME is that row. The lead byte 0x10 by which the
rows of a received byte are named is the model's choice (log entry 11). -/
def Obligations.ConsumeIsTheRowOfTheMap : Prop :=
  ∀ (s : State) (b : Byte), Inv s →
    ∃ i, rxRow s.ctx b = some i ∧ Instr.wellFormed s.ctx i = true ∧
      encode i = [0x10#8, b] ∧ exec (.consume b) s = exec i s ∧
      ∀ j, Instr.wellFormed s.ctx j = true → encode j = [0x10#8, b] → j = i

/-- 41_decoder.md R120: CONSUME is defined for every byte in every sound state, with a handler that
keeps its duties (60_exceptions.md R228), and the state it leaves is sound again. -/
def Obligations.ConsumeAlwaysCompletes : Prop :=
  ∀ (s : State) (b : Byte), Inv s → s.callback ≠ none → HandlerDutiful s →
    ∃ t, exec (.consume b) s = .next t ∧ Inv t ∧ HandlerDutiful t ∧ t.callback = s.callback

/-- 41_decoder.md R136, R147: a CONSUME delivers at most one message, and then it ends in SYNC_1. -/
def Obligations.ConsumeDeliversAtMostOnce : Prop :=
  ∀ (s t : State) (b : Byte), exec (.consume b) s = .next t →
    t.delivered = s.delivered ∨
      ∃ d, t.delivered = s.delivered ++ [d] ∧ t.state = .sync1 ∧ t.previousId = d.message.id ∧
        d.seenPayloadPosition = d.message.payloadSize ∧ d.position = s.received.length + 1

/-- 41_decoder.md R120, 43_encoder.md R176: CONSUME itself leaves the encoder alone; only a call the
handler makes can change it. -/
def Obligations.ConsumeLeavesTheEncoder : Prop :=
  ∀ (s t : State) (b : Byte), nextCalls s = [] → exec (.consume b) s = .next t →
    t.txId = s.txId ∧ t.writes = s.writes ∧ t.results = s.results ∧ t.callback = s.callback ∧
      t.sync1Val = s.sync1Val ∧ t.sync2Val = s.sync2Val ∧ t.requests = s.requests

/-- 41_decoder.md R138, R139, 43_encoder.md R176: what the handler calls while it is invoked by the
byte that completes a frame has the outcome it would have right after that byte, refusals too. That the
handler's calls stand in `reactions`, one entry used up at each delivery, is the model's choice (log
entry 9). -/
def Obligations.CallbackCallsActAfterTheByte : Prop :=
  ∀ (s : State) (b : Byte),
    (s.state = .payloadSize ∧ b = 0#8) ∨
      (s.state = .payload ∧ s.payloadPosition.toNat + 1 = s.bufPayloadSize.toNat) →
    exec (.consume b) s =
      andThen (exec (.consume b) { s with reactions := [] }) fun t =>
        runCalls (nextCalls s) { t with reactions := s.reactions.tail }

/-- 41_decoder.md R138 (D28), 43_encoder.md R172 (D27), 60_exceptions.md R215, R219, R220: a handler that
applies an operation to the decoder that invokes it, writes the buffer, or transmits with too short a
payload operand has no step, at whatever place among its calls, after any calls the contract allows (log
entries 9, 10). -/
def Obligations.ReentrantCallsAreRefused : Prop :=
  ∀ (s : State) (d b : Byte) (k : Nat) (h : Option Handler) (tx : TxCall)
    (pre cs : List HandlerCall) (i : Instr),
    s.callback ≠ none →
    (s.state = .payloadSize ∧ (i = .rxSizeZero ∨ i = .consume 0#8)) ∨
      (s.state = .payload ∧ s.payloadPosition.toNat + 1 = s.bufPayloadSize.toNat ∧
        s.payloadPosition.toNat < 64 ∧ (i = .rxPayloadLast d ∨ i = .consume d)) →
    (∀ c ∈ pre, allowedCall c = true) →
    (nextCalls s = pre ++ .consume b :: cs → exec i s = .refused .reentrantCall) ∧
    (nextCalls s = pre ++ .onSilence :: cs → exec i s = .refused .reentrantCall) ∧
    (nextCalls s = pre ++ .init h :: cs → exec i s = .refused .reentrantCall) ∧
    (nextCalls s = pre ++ .writeBuffer k b :: cs → exec i s = .refused .handlerWroteBuffer) ∧
    (nextCalls s = pre ++ .transmit tx :: cs → tx.payloadSize.toNat ≤ 64 →
      tx.payload.length < tx.payloadSize.toNat → exec i s = .refused .shortPayload)

/-- 44_command_vocabulary.md R184, 41_decoder.md R138: a status report sent from the callback that the
empty frame invokes is a frame whose command is `CMD_STATUS` and whose payload is the open layout of the
six items, the error count being `errors` as it is when the report is built, which is the value the handler
sees. The open layout and the items' numbers are log entry 27's, `reactions` log entry 9's. -/
def Obligations.StatusReportCarriesTheErrorCount : Prop :=
  ∀ (s : State) (k : Handler) (v : StatusValues) (r : Byte), s.callback = some k →
    s.state = .payloadSize → nextCalls s = [.reportStatus v r] →
    let report := [(StatusItem.profileCount, v.profileCount), (.currentProfile, v.currentProfile),
      (.onOffFlag, v.onOffFlag), (.reactiveFlag, v.reactiveFlag), (.brightness, v.brightness),
      (.errorCount, s.errors.toNat)]
    ∃ t d n, exec .rxSizeZero s = .next t ∧ n.toNat = (Config.statusSize report).val ∧
      t.writes = s.writes ++ List.replicate (1 + r.toNat)
        ([s.sync1Val, s.sync2Val, Config.cmdCode .status, s.txId, n] ++
          (Config.statusLayout report).toList.take n.toNat) ∧
      t.txId = s.txId + 1#8 ∧ t.results = s.results ++ [.ok] ∧ t.errors = s.errors ∧
      t.delivered = s.delivered ++ [d] ∧ d.seenErrors = s.errors ∧ t.state = .sync1

/-! ## ON_SILENCE -/

/-- 42_silence.md R150 (D5): `state` and nothing else, in every state. -/
def Obligations.SilenceWritesOnlyState : Prop :=
  ∀ s : State, s.callback ≠ none → exec .onSilence s = .next { s with state := .sync1 }

/-- 42_silence.md R153: twice is once, and in SYNC_1 it cannot be told from its absence. -/
def Obligations.SilenceIsIdempotent : Prop :=
  ∀ (s : State) (b : Byte),
    andThen (exec .onSilence s) (exec .onSilence) = exec .onSilence s ∧
    (s.state = .sync1 → andThen (exec .onSilence s) (exec (.consume b)) = exec (.consume b) s)

/-! ## TRANSMIT -/

/-- 43_encoder.md R163 to R168 (D11: the id is the counter): the same frame `1 + retries` times, the
operand's bytes beyond `payloadSize` not sent, the id advanced once. -/
def Obligations.TransmitSendsEveryAttempt : Prop :=
  ∀ (s : State) (c : Byte) (p : List Byte) (n r : Byte), s.callback ≠ none → n.toNat ≤ 64 →
    n.toNat ≤ p.length →
    exec (.transmitOk c p n r) s =
      .next { s with
        txId := s.txId + 1#8
        writes := s.writes ++ List.replicate (1 + r.toNat)
          ([s.sync1Val, s.sync2Val, c, s.txId, n] ++ p.take n.toNat)
        results := s.results ++ [.ok] }

/-- 43_encoder.md R162 (D12): the result is reported and nothing else happens, whatever the payload
operand and `retries` are. -/
def Obligations.OversizeTransmitIsRejected : Prop :=
  ∀ (s : State) (c : Byte) (p : List Byte) (n r : Byte), s.callback ≠ none → 65 ≤ n.toNat →
    exec (.transmitReject c p n r) s =
      .next { s with results := s.results ++ [.errOversize] }

/-- 43_encoder.md R172 (D27): a payload operand shorter than its size is refused. -/
def Obligations.ShortPayloadIsRefused : Prop :=
  ∀ (s : State) (c : Byte) (p : List Byte) (n r : Byte), s.callback ≠ none → n.toNat ≤ 64 →
    p.length < n.toNat → exec (.transmitOk c p n r) s = .refused .shortPayload

/-- 43_encoder.md R167: the counts of writes and of bytes on the outgoing stream. -/
def Obligations.TransmitCounts : Prop :=
  ∀ (s t : State) (c : Byte) (p : List Byte) (n r : Byte),
    exec (.transmitOk c p n r) s = .next t →
    t.writes.length = s.writes.length + (1 + r.toNat) ∧
      t.writes.flatten.length = s.writes.flatten.length + (1 + r.toNat) * (5 + n.toNat)

/-- 43_encoder.md R176: TRANSMIT, accepted or rejected, commutes with ON_SILENCE and with CONSUME, where
the handler does not itself transmit in that CONSUME. -/
def Obligations.TransmitCommutesWithReceiving : Prop :=
  ∀ (s t u : State) (i j : Instr) (b c : Byte) (p : List Byte) (n r : Byte),
    i = .onSilence ∨
      (i = .consume b ∧ (completesFrame b s = false ∨ handlerTransmits s = false)) →
    j = .transmitOk c p n r ∨ j = .transmitReject c p n r →
    exec i s = .next t → exec j s = .next u →
    ∃ v, exec j t = .next v ∧ exec i u = .next v

/-! ## Frames -/

/-- 41_decoder.md R140: a well-formed frame taken in SYNC_1 is decoded in exactly its own length:
one message, on its last byte, equal to what was sent, no error; everything it changes is named. That
the delivery uses up the head of `reactions` is the model's choice (log entry 9). -/
def Obligations.WellFormedFrameIsDelivered : Prop :=
  ∀ (s : State) (h : Handler) (c i n : Byte) (p : List Byte), s.callback = some h →
    s.state = .sync1 → Memory.wf s.payload = true → nextCalls s = [] → n.toNat ≤ 64 →
    p.length = n.toNat →
    ∃ m : Memory,
      (∀ a, memRead m a = if a < n.toNat then p.getD a 0#8 else memRead s.payload a) ∧
      exec (.frame s.sync1Val s.sync2Val c i n p) s =
        .next { s with
          bufCommand := c, bufId := i, bufPayloadSize := n, payload := m, payloadPosition := n,
          previousId := i,
          received := s.received ++ ([s.sync1Val, s.sync2Val, c, i, n] ++ p),
          reactions := s.reactions.tail,
          delivered := s.delivered ++
            [{ handler := h, message := ⟨c, i, n, p⟩,
               position := s.received.length + 5 + n.toNat,
               seenState := if n = 0#8 then .payloadSize else .payload,
               seenPayloadPosition := n, seenPreviousId := i, seenErrors := s.errors }] }

/-- 41_decoder.md R132, R142 (D9; saturation: R27, D2, D3): a frame whose size byte is illegal is
discarded, one error is counted, nothing is delivered and no payload byte is written. -/
def Obligations.OversizeFrameIsDiscarded : Prop :=
  ∀ (s : State) (c i n : Byte), s.callback ≠ none → s.state = .sync1 → 65 ≤ n.toNat →
    exec (.frame s.sync1Val s.sync2Val c i n []) s =
      .next { s with
        bufCommand := c, bufId := i, bufPayloadSize := n,
        errors := if s.errors = 255#8 then 255#8 else s.errors + 1#8,
        received := s.received ++ [s.sync1Val, s.sync2Val, c, i, n] }

/-- 20_memory.md R72, 41_decoder.md R125, R141 (saturation: R27, D2, D3): after a stray first sync
byte, with two different sync values, a real frame costs one error and is delivered. -/
def Obligations.StrayFirstSyncCostsOneError : Prop :=
  ∀ (s : State) (h : Handler) (c i n : Byte) (p : List Byte), s.callback = some h →
    s.state = .sync2 → s.sync1Val ≠ s.sync2Val → Memory.wf s.payload = true →
    nextCalls s = [] → n.toNat ≤ 64 → p.length = n.toNat →
    ∃ t d, exec (.frame s.sync1Val s.sync2Val c i n p) s = .next t ∧
      t.delivered = s.delivered ++ [d] ∧ d.message = ⟨c, i, n, p⟩ ∧ t.state = .sync1 ∧
      t.errors = if s.errors = 255#8 then 255#8 else s.errors + 1#8

/-- 42_silence.md R150, R151, R152: after a silence reset, from any state and with any stale
position, the next well-formed frame is delivered whole. -/
def Obligations.SilenceLosesNoLaterFrame : Prop :=
  ∀ (s : State) (h : Handler) (c i n : Byte) (p : List Byte), s.callback = some h →
    Memory.wf s.payload = true → nextCalls s = [] → n.toNat ≤ 64 → p.length = n.toNat →
    ∃ t d, andThen (exec .onSilence s) (exec (.frame s.sync1Val s.sync2Val c i n p)) = .next t ∧
      t.delivered = s.delivered ++ [d] ∧ d.message = ⟨c, i, n, p⟩ ∧ t.errors = s.errors ∧
      t.state = .sync1 ∧ t.payloadPosition = n

/-- 43_encoder.md R175, R178, 41_decoder.md R144: what an accepted TRANSMIT writes, fed byte by byte
to a decoder in SYNC_1 with the same sync values and a handler that only listens, is delivered once
per attempt, each time the same message with the id sent, and counts no error. -/
def Obligations.RetriesRoundTrip : Prop :=
  ∀ (s u : State) (c : Byte) (p : List Byte) (n r : Byte),
    exec (.transmitOk c p n r) s = .next u →
    ∃ w : List Byte, u.writes = s.writes ++ List.replicate (1 + r.toNat) w ∧
      ∀ v : State, v.sync1Val = s.sync1Val → v.sync2Val = s.sync2Val → v.callback ≠ none →
        v.state = .sync1 → Memory.wf v.payload = true → HandlerQuiet v →
        ∃ t, consumeAll (List.replicate (1 + r.toNat) w).flatten v = .next t ∧
          t.delivered.map Delivery.message =
            v.delivered.map Delivery.message ++
              List.replicate (1 + r.toNat) ⟨c, s.txId, n, p.take n.toNat⟩ ∧
          t.errors = v.errors ∧ t.state = .sync1 ∧ t.previousId = s.txId

/-- 41_decoder.md R141 (C14): from `CMD`, `ID`, `PAYLOAD_SIZE` or `PAYLOAD` the decoder is back in
SYNC_1 after at most 67, 66, 65 or 64 bytes, whatever they are. -/
def Obligations.SyncIsRegained : Prop :=
  ∀ (s : State) (bound : Nat) (bs : List Byte), Inv s → s.callback ≠ none → HandlerDutiful s →
    (s.state, bound) ∈ [(DecState.cmd, 67), (.id, 66), (.payloadSize, 65), (.payload, 64)] →
    bs.length = bound →
    ∃ k t, 1 ≤ k ∧ k ≤ bound ∧ consumeAll (bs.take k) s = .next t ∧ t.state = .sync1

/-! ## The vocabulary -/

/-- 44_command_vocabulary.md R180, 30_encoding.md R86, 41_decoder.md R128 (log entry 18): each of the
seventeen rows `VOC.M2L.*` and `VOC.L2M.*`, whatever its code, is stored as the command when the
decoder is at the COMMAND field, and in every state is the CONSUME of its byte. -/
def Obligations.VocabularyBytesAreOpaque : Prop :=
  ∀ (s : State) (c : Byte) (i : Instr),
    i ∈ [.vocM2lLedOn c, .vocM2lLedOff c, .vocM2lProfileSet c, .vocM2lProfileNext c,
      .vocM2lProfilePrev c, .vocM2lIntensityNext c, .vocM2lIntensitySet c,
      .vocM2lAnimationSpeed c, .vocM2lMaskKey c, .vocM2lMaskRow c, .vocM2lMaskMono c,
      .vocM2lStatusQuery c, .vocM2lKeyDown c, .vocM2lKeyBlink c, .vocM2lIap c, .vocL2mDebug c,
      .vocL2mStatus c] →
    exec i s = exec (.consume c) s ∧
    (s.callback ≠ none → s.state = .cmd →
      exec i s =
        .next { s with bufCommand := c, state := .id, received := s.received ++ [c] })

/-! ## Rules about the whole machine -/

/-- 10_state.md R26: only INIT lowers `errors`; ON_SILENCE and frame completion leave it unchanged. -/
def Obligations.ErrorsNeverDecrease : Prop :=
  (∀ (s t : State) (i : Instr), (∀ h, i ≠ .init h) → exec i s = .next t →
    s.errors.toNat ≤ t.errors.toNat) ∧
  (∀ s t : State, exec .onSilence s = .next t → t.errors = s.errors) ∧
  (∀ s t : State, complete s = .next t → t.errors = s.errors)

/-- 10_state.md R27 (D2, D3: eight bits, saturating). -/
def Obligations.ErrorCountSaturates : Prop :=
  ∀ e : Byte, (e.toNat < 255 → (incSat e).toNat = e.toNat + 1) ∧ (e.toNat = 255 → incSat e = e)

/-- 10_state.md R24 (D8): outside INIT, `previousId` changes only with a delivery, and is then the
id of the last message delivered. -/
def Obligations.PreviousIdFollowsDelivery : Prop :=
  ∀ (s t : State) (i : Instr), (∀ h, i ≠ .init h) → exec i s = .next t →
    (t.delivered = s.delivered → t.previousId = s.previousId) ∧
    (t.delivered ≠ s.delivered →
      ∃ d, t.delivered.getLast? = some d ∧ t.previousId = d.message.id)

/-- 20_memory.md R64, R70 (D19): what has been delivered, written or reported stays as it was, and
new outputs come after it. -/
def Obligations.OutputsAreNeverRewritten : Prop :=
  ∀ s t : State, step s = .next t →
    s.delivered <+: t.delivered ∧ s.writes <+: t.writes ∧ s.results <+: t.results ∧
      s.received <+: t.received

/-- 00_scope.md R8: the block's parameters are fixed; and the handler is bound by INIT only
(10_state.md R33). -/
def Obligations.ParametersNeverChange : Prop :=
  ∀ (s t : State) (i : Instr), exec i s = .next t →
    t.sync1Val = s.sync1Val ∧ t.sync2Val = s.sync2Val ∧
      ((∀ h, i ≠ .init h) → t.callback = s.callback)

/-- 10_state.md R37, R38 (INV1, INV2, INV5): every step keeps the bounds and the buffer's canonical
form. -/
def Obligations.StepKeepsTheBounds : Prop :=
  ∀ s t : State, Inv s → step s = .next t → Inv t

/-- 10_state.md R38: the bounds hold at reset. -/
def Obligations.ResetMeetsTheBounds : Prop := Inv State.reset

/-- 10_state.md R37, R38 (INV3, INV4): every step keeps the frame under assembly equal to the end of
the consumed stream, and every delivered message equal to the bytes that carried it. -/
def Obligations.StepKeepsTheStream : Prop :=
  ∀ s t : State, Inv s → StreamInv s → step s = .next t → StreamInv t

/-- 10_state.md R38: the stream's invariant holds at reset. -/
def Obligations.ResetMeetsTheStream : Prop := StreamInv State.reset

/-- 10_state.md R37 INV5, 41_decoder.md R145: no byte sequence makes a sound block fault or write
outside the buffer. -/
def Obligations.SoundStatesNeverFault : Prop := ∀ s : State, Inv s → NoFault (step s)

/-! ## Requests -/

/-- Decode and encode agree on every row of the table, every operand at every value its row allows,
in every context (30_encoding.md R81, R89, R90, R98; the byte layout is the model's, log entry 11). -/
def Obligations.DecodeReadsWhatEncodeWrites : Prop :=
  ∀ (c : Ctx) (i : Instr) (rest : List Byte), Instr.wellFormed c i = true →
    decode c (encode i ++ rest) = .ok (i, rest)

/-- The step runs the decoded instruction on the state with its bytes taken (00_scope.md R7,
20_memory.md R63), but for two TRANSMITs at once (43_encoder.md R174); with nothing asked it rests (log
entries 11, 13, 25). -/
def Obligations.StepRunsTheDecodedInstruction : Prop :=
  ∀ (s : State) (i : Instr) (rest : List Byte),
    (decode s.ctx s.requests = .ok (i, rest) →
      step s = if overlappingTransmits s then .refused .overlap
        else exec i { s with requests := rest }) ∧
    (s.requests = [] → step s = .next s) ∧
    (s.requests = 0#8 :: rest → step s = .next { s with requests := rest })

/-- A well-formed instruction asked for is the one the step runs, whatever is asked after it. -/
def Obligations.EncodedRequestsRun : Prop :=
  ∀ (s : State) (i : Instr) (rest : List Byte), Instr.wellFormed s.ctx i = true →
    step { s with requests := encode i ++ rest } = exec i { s with requests := rest }

/-- 60_exceptions.md R215, 30_encoding.md R97 (D17, D18): two operations at once on the decoder, or
INIT with anything, have no step. -/
def Obligations.OverlapIsRefused : Prop :=
  ∀ (s : State) (lead : Byte) (rest : List Byte),
    lead ∈ [0x06#8, 0x07#8, 0x09#8, 0x0A#8, 0x0B#8, 0x0C#8, 0x0D#8, 0x0E#8, 0x0F#8] →
    step { s with requests := lead :: rest } = .refused .overlap

/-- 30_encoding.md R97: a TRANSMIT may be asked together with a byte or a silence event; the
decoder's operation is done and the TRANSMIT is next (log entry 13; either order is the same by
`TransmitCommutesWithReceiving`). A byte at which the handler transmits too is
`OverlappingTransmitsAreRefused`'s. -/
def Obligations.TransmitMayAccompany : Prop :=
  ∀ (s : State) (b : Byte) (rest : List Byte),
    (completesFrame b s = false ∨ handlerTransmits s = false →
      step { s with requests := 0x05#8 :: b :: rest } =
        exec (.consume b) { s with requests := 0x01#8 :: rest }) ∧
      step { s with requests := 0x03#8 :: rest } =
        exec .onSilence { s with requests := 0x01#8 :: rest }

/-- 43_encoder.md R174: a TRANSMIT that accompanies a frame's completing byte overlaps on the encoder with
one that the handler makes in that delivery, wherever it stands among the handler's calls, and has no
step (log entry 13). -/
def Obligations.OverlappingTransmitsAreRefused : Prop :=
  ∀ (s : State) (b : Byte) (pre cs : List HandlerCall) (c : HandlerCall) (rest : List Byte),
    (s.state = .payloadSize ∧ b = 0#8) ∨
      (s.state = .payload ∧ s.payloadPosition.toNat + 1 = s.bufPayloadSize.toNat) →
    (∃ tx, c = .transmit tx) ∨ (∃ v r, c = .reportStatus v r) →
    nextCalls s = pre ++ c :: cs →
    step { s with requests := 0x05#8 :: b :: rest } = .refused .overlap

/-- Words written out from the table decode to their rows (30_encoding.md R81, R88, R90; the layout
of operands is log entry 11's, the reading of one-byte table words log entry 12's). -/
def Obligations.TableWordsDecode : Prop :=
  decodeTableWord 8 8 = some (.init (some ⟨0#8⟩)) ∧
  decodeTableWord 8 4 = some (.consume 0#8) ∧
  decodeTableWord 8 2 = some .onSilence ∧
  decodeTableWord 8 1 = some (.transmitOk 0#8 [] 0#8 0#8) ∧
  decodeTableWord 8 0 = some .rxSizeZero ∧
  decodeTableWord 8 0x40 = some (.rxSizeOk 0x40#8) ∧
  decodeTableWord 8 0x41 = some (.rxSizeOver 0x41#8) ∧
  decodeTableWord 40 0x0207100DAA = some (.frame 0xAA#8 0x0D#8 0x10#8 0x07#8 0x02#8 [0#8, 0#8])

/-! ## The reference watchdog -/

/-- 60_exceptions.md R223, 42_silence.md R153: after a byte, `n` ticks of silence fire ON_SILENCE
once if `n` reaches the threshold and not at all before; the silence ends with the next byte, whatever it
is, which starts a new one, or with the line. The rendering of the informative R223 as a maker of
requests is the model's (log entry 15). -/
def Obligations.WatchdogFiresOncePerSilence : Prop :=
  ∀ (ticks idle n : Nat) (b : Byte) (line : List LineEvent), 0 < ticks →
    line = [] ∨ (∃ b' rest, line = .byte b' :: rest) →
    watchdogRequests ticks idle (.byte b :: (List.replicate n .tick ++ line)) =
      encode (.consume b) ++ (if ticks ≤ n then encode .onSilence else []) ++
        watchdogRequests ticks 0 line
end

