-- ==== Sys2Proof/Laws/Memory.lean ====
section
/-! SUPPORT. The payload buffer: reading after writing, the canonical form, slices. -/

namespace Sys2Proof.Machine

/-- A list that rises from `a` lists nothing below `a`. -/
theorem memRead_below {m : Memory} {a x : Nat} (h : Memory.risesFrom a m = true) (hx : x < a) :
    memRead m x = Memory.unlisted := by
  induction m generalizing a with
  | nil => rfl
  | cons c rest ih =>
    obtain ⟨y, w⟩ := c
    simp only [Memory.risesFrom, Bool.and_eq_true, decide_eq_true_eq] at h
    rw [memRead, if_neg (by omega)]
    exact ih h.2 (by omega)

/-- A canonical list may be taken to rise from anything lower. -/
theorem risesFrom_mono {m : Memory} {a b : Nat} (hab : b ≤ a) (h : Memory.risesFrom a m = true) :
    Memory.risesFrom b m = true := by
  cases m with
  | nil => rfl
  | cons c rest =>
    simp only [Memory.risesFrom, Bool.and_eq_true, decide_eq_true_eq] at h ⊢
    exact ⟨⟨⟨by omega, h.1.1.2⟩, h.1.2⟩, h.2⟩

theorem memRead_memWrite_same_from {m : Memory} {a x : Nat} (v : Byte)
    (h : Memory.risesFrom a m = true) : memRead (memWrite m x v) x = v := by
  induction m generalizing a with
  | nil =>
    by_cases hv : v = Memory.unlisted <;> simp [memWrite, memRead, hv]
  | cons c rest ih =>
    obtain ⟨y, w⟩ := c
    have hc := h
    simp only [Memory.risesFrom, Bool.and_eq_true, decide_eq_true_eq] at h
    by_cases h1 : x < y
    · by_cases hv : v = Memory.unlisted
      · rw [memWrite, if_pos h1, if_pos hv, hv]
        rw [memRead, if_neg (by omega)]
        exact memRead_below h.2 (by omega)
      · simp [memWrite, memRead, h1, hv]
    · by_cases h2 : x = y
      · subst h2
        by_cases hv : v = Memory.unlisted
        · rw [memWrite, if_neg h1, if_pos rfl, if_pos hv, hv]
          exact memRead_below h.2 (by omega)
        · simp [memWrite, memRead, hv]
      · rw [memWrite, if_neg h1, if_neg h2, memRead, if_neg (by omega)]
        exact ih h.2

/-- A read of the byte written gives it back. -/
theorem memRead_memWrite_same {m : Memory} (x : Nat) (v : Byte) (h : Memory.wf m = true) :
    memRead (memWrite m x v) x = v :=
  memRead_memWrite_same_from v h

/-- A write leaves every other index alone. -/
theorem memRead_memWrite_other (m : Memory) {x y : Nat} (v : Byte) (hxy : y ≠ x) :
    memRead (memWrite m x v) y = memRead m y := by
  induction m with
  | nil =>
    by_cases hv : v = Memory.unlisted
    · simp [memWrite, hv]
    · simp [memWrite, memRead, hv, hxy.symm]
  | cons c rest ih =>
    obtain ⟨z, w⟩ := c
    by_cases h1 : x < z
    · by_cases hv : v = Memory.unlisted
      · simp [memWrite, h1, hv]
      · simp [memWrite, memRead, h1, hv, hxy.symm]
    · by_cases h2 : x = z
      · subst h2
        by_cases hv : v = Memory.unlisted
        · simp [memWrite, memRead, hv, hxy.symm]
        · simp [memWrite, memRead, hv, hxy.symm]
      · rw [memWrite, if_neg h1, if_neg h2, memRead, memRead, ih]

theorem risesFrom_memWrite {m : Memory} {a x : Nat} (v : Byte) (hax : a ≤ x) (hx : x < 64)
    (h : Memory.risesFrom a m = true) : Memory.risesFrom a (memWrite m x v) = true := by
  induction m generalizing a with
  | nil =>
    by_cases hv : v = Memory.unlisted
    · simp [memWrite, hv, Memory.risesFrom]
    · simp [memWrite, hv, Memory.risesFrom, hax, hx, Config.maxPayloadSize]
  | cons c rest ih =>
    obtain ⟨z, w⟩ := c
    have h' := h
    simp only [Memory.risesFrom, Bool.and_eq_true, decide_eq_true_eq] at h'
    obtain ⟨⟨⟨haz, hz⟩, hw⟩, hr⟩ := h'
    by_cases h1 : x < z
    · by_cases hv : v = Memory.unlisted
      · rw [memWrite, if_pos h1, if_pos hv]; exact h
      · rw [memWrite, if_pos h1, if_neg hv]
        simp only [Memory.risesFrom, Bool.and_eq_true, decide_eq_true_eq]
        exact ⟨⟨⟨hax, hx⟩, hv⟩, ⟨⟨by omega, hz⟩, hw⟩, hr⟩
    · by_cases h2 : x = z
      · subst h2
        by_cases hv : v = Memory.unlisted
        · rw [memWrite, if_neg h1, if_pos rfl, if_pos hv]
          exact risesFrom_mono (by omega) hr
        · rw [memWrite, if_neg h1, if_pos rfl, if_neg hv]
          simp only [Memory.risesFrom, Bool.and_eq_true, decide_eq_true_eq]
          exact ⟨⟨⟨hax, hx⟩, hv⟩, hr⟩
      · rw [memWrite, if_neg h1, if_neg h2]
        simp only [Memory.risesFrom, Bool.and_eq_true, decide_eq_true_eq]
        exact ⟨⟨⟨haz, hz⟩, hw⟩, ih (by omega) hr⟩

/-- A write inside the buffer keeps the canonical form. -/
theorem memWrite_wf {m : Memory} {x : Nat} (v : Byte) (hx : x < 64) (h : Memory.wf m = true) :
    Memory.wf (memWrite m x v) = true :=
  risesFrom_memWrite v (Nat.zero_le x) hx h

/-- Canonical buffers that read alike are equal. -/
theorem memory_ext_from {m m' : Memory} {a : Nat} (h : Memory.risesFrom a m = true)
    (h' : Memory.risesFrom a m' = true) (hr : ∀ x, memRead m x = memRead m' x) : m = m' := by
  induction m generalizing a m' with
  | nil =>
    cases m' with
    | nil => rfl
    | cons c rest =>
      obtain ⟨y, w⟩ := c
      simp only [Memory.risesFrom, Bool.and_eq_true, decide_eq_true_eq] at h'
      have := hr y
      simp only [memRead, if_pos] at this
      exact absurd this.symm h'.1.2
  | cons c rest ih =>
    obtain ⟨y, w⟩ := c
    simp only [Memory.risesFrom, Bool.and_eq_true, decide_eq_true_eq] at h
    cases m' with
    | nil =>
      have := hr y
      simp only [memRead, if_pos] at this
      exact absurd this h.1.2
    | cons c' rest' =>
      obtain ⟨y', w'⟩ := c'
      simp only [Memory.risesFrom, Bool.and_eq_true, decide_eq_true_eq] at h'
      have hy : y = y' := by
        rcases Nat.lt_trichotomy y y' with hlt | heq | hlt
        · have := hr y
          rw [memRead, if_pos rfl, memRead, if_neg (by omega),
            memRead_below h'.2 (by omega)] at this
          exact absurd this h.1.2
        · exact heq
        · have := hr y'
          rw [memRead, if_neg (by omega), memRead_below h.2 (by omega), memRead,
            if_pos rfl] at this
          exact absurd this.symm h'.1.2
      subst hy
      have hw : w = w' := by simpa [memRead] using hr y
      subst hw
      have hrest : rest = rest' := by
        refine ih h.2 h'.2 fun x => ?_
        by_cases hx : y = x
        · subst hx
          rw [memRead_below h.2 (by omega), memRead_below h'.2 (by omega)]
        · simpa [memRead, hx] using hr x
      rw [hrest]

/-- Canonical buffers that read alike are equal. -/
theorem memory_ext {m m' : Memory} (h : Memory.wf m = true) (h' : Memory.wf m' = true)
    (hr : ∀ x, memRead m x = memRead m' x) : m = m' :=
  memory_ext_from h h' hr

@[simp] theorem memSlice_zero (m : Memory) : memSlice m 0 = [] := rfl

@[simp] theorem memSlice_length (m : Memory) (n : Nat) : (memSlice m n).length = n := by
  simp [memSlice]

theorem memSlice_succ (m : Memory) (n : Nat) :
    memSlice m (n + 1) = memSlice m n ++ [memRead m n] := by
  simp [memSlice, List.range_succ]

theorem memSlice_memWrite_of_le (m : Memory) {n x : Nat} (v : Byte) (h : n ≤ x) :
    memSlice (memWrite m x v) n = memSlice m n := by
  refine List.map_congr_left fun a ha => memRead_memWrite_other m v ?_
  have := List.mem_range.mp ha
  omega

/-- Storing at the position appends the byte to what is accumulated. -/
theorem memSlice_memWrite_succ {m : Memory} (n : Nat) (v : Byte) (h : Memory.wf m = true) :
    memSlice (memWrite m n v) (n + 1) = memSlice m n ++ [v] := by
  rw [memSlice_succ, memRead_memWrite_same n v h, memSlice_memWrite_of_le m v (Nat.le_refl n)]

end Sys2Proof.Machine
end

