-- ==== Sys2Proof/Laws/State.lean ====
section
/-! SUPPORT. One lemma per field per named update of Machine/Ops.lean, so that no later proof unfolds
a record update. -/

namespace Sys2Proof.Machine

/-! ### goTo -/

@[simp] theorem goTo_sync1Val (st : DecState) (s : State) : (goTo st s).sync1Val = s.sync1Val := rfl
@[simp] theorem goTo_sync2Val (st : DecState) (s : State) : (goTo st s).sync2Val = s.sync2Val := rfl
@[simp] theorem goTo_state (st : DecState) (s : State) : (goTo st s).state = st := rfl
@[simp] theorem goTo_payloadPosition (st : DecState) (s : State) :
    (goTo st s).payloadPosition = s.payloadPosition := rfl
@[simp] theorem goTo_previousId (st : DecState) (s : State) :
    (goTo st s).previousId = s.previousId := rfl
@[simp] theorem goTo_errors (st : DecState) (s : State) : (goTo st s).errors = s.errors := rfl
@[simp] theorem goTo_bufCommand (st : DecState) (s : State) :
    (goTo st s).bufCommand = s.bufCommand := rfl
@[simp] theorem goTo_bufId (st : DecState) (s : State) : (goTo st s).bufId = s.bufId := rfl
@[simp] theorem goTo_bufPayloadSize (st : DecState) (s : State) :
    (goTo st s).bufPayloadSize = s.bufPayloadSize := rfl
@[simp] theorem goTo_payload (st : DecState) (s : State) : (goTo st s).payload = s.payload := rfl
@[simp] theorem goTo_callback (st : DecState) (s : State) : (goTo st s).callback = s.callback := rfl
@[simp] theorem goTo_txId (st : DecState) (s : State) : (goTo st s).txId = s.txId := rfl
@[simp] theorem goTo_received (st : DecState) (s : State) : (goTo st s).received = s.received := rfl
@[simp] theorem goTo_delivered (st : DecState) (s : State) :
    (goTo st s).delivered = s.delivered := rfl
@[simp] theorem goTo_writes (st : DecState) (s : State) : (goTo st s).writes = s.writes := rfl
@[simp] theorem goTo_results (st : DecState) (s : State) : (goTo st s).results = s.results := rfl
@[simp] theorem goTo_requests (st : DecState) (s : State) : (goTo st s).requests = s.requests := rfl
@[simp] theorem goTo_reactions (st : DecState) (s : State) :
    (goTo st s).reactions = s.reactions := rfl

/-! ### noteByte -/

@[simp] theorem noteByte_sync1Val (b : Byte) (s : State) :
    (noteByte b s).sync1Val = s.sync1Val := rfl
@[simp] theorem noteByte_sync2Val (b : Byte) (s : State) :
    (noteByte b s).sync2Val = s.sync2Val := rfl
@[simp] theorem noteByte_state (b : Byte) (s : State) : (noteByte b s).state = s.state := rfl
@[simp] theorem noteByte_payloadPosition (b : Byte) (s : State) :
    (noteByte b s).payloadPosition = s.payloadPosition := rfl
@[simp] theorem noteByte_previousId (b : Byte) (s : State) :
    (noteByte b s).previousId = s.previousId := rfl
@[simp] theorem noteByte_errors (b : Byte) (s : State) : (noteByte b s).errors = s.errors := rfl
@[simp] theorem noteByte_bufCommand (b : Byte) (s : State) :
    (noteByte b s).bufCommand = s.bufCommand := rfl
@[simp] theorem noteByte_bufId (b : Byte) (s : State) : (noteByte b s).bufId = s.bufId := rfl
@[simp] theorem noteByte_bufPayloadSize (b : Byte) (s : State) :
    (noteByte b s).bufPayloadSize = s.bufPayloadSize := rfl
@[simp] theorem noteByte_payload (b : Byte) (s : State) : (noteByte b s).payload = s.payload := rfl
@[simp] theorem noteByte_callback (b : Byte) (s : State) :
    (noteByte b s).callback = s.callback := rfl
@[simp] theorem noteByte_txId (b : Byte) (s : State) : (noteByte b s).txId = s.txId := rfl
@[simp] theorem noteByte_received (b : Byte) (s : State) :
    (noteByte b s).received = s.received ++ [b] := rfl
@[simp] theorem noteByte_delivered (b : Byte) (s : State) :
    (noteByte b s).delivered = s.delivered := rfl
@[simp] theorem noteByte_writes (b : Byte) (s : State) : (noteByte b s).writes = s.writes := rfl
@[simp] theorem noteByte_results (b : Byte) (s : State) : (noteByte b s).results = s.results := rfl
@[simp] theorem noteByte_requests (b : Byte) (s : State) :
    (noteByte b s).requests = s.requests := rfl
@[simp] theorem noteByte_reactions (b : Byte) (s : State) :
    (noteByte b s).reactions = s.reactions := rfl

/-! ### setCommand -/

@[simp] theorem setCommand_sync1Val (b : Byte) (s : State) :
    (setCommand b s).sync1Val = s.sync1Val := rfl
@[simp] theorem setCommand_sync2Val (b : Byte) (s : State) :
    (setCommand b s).sync2Val = s.sync2Val := rfl
@[simp] theorem setCommand_state (b : Byte) (s : State) : (setCommand b s).state = s.state := rfl
@[simp] theorem setCommand_payloadPosition (b : Byte) (s : State) :
    (setCommand b s).payloadPosition = s.payloadPosition := rfl
@[simp] theorem setCommand_previousId (b : Byte) (s : State) :
    (setCommand b s).previousId = s.previousId := rfl
@[simp] theorem setCommand_errors (b : Byte) (s : State) : (setCommand b s).errors = s.errors := rfl
@[simp] theorem setCommand_bufCommand (b : Byte) (s : State) :
    (setCommand b s).bufCommand = b := rfl
@[simp] theorem setCommand_bufId (b : Byte) (s : State) : (setCommand b s).bufId = s.bufId := rfl
@[simp] theorem setCommand_bufPayloadSize (b : Byte) (s : State) :
    (setCommand b s).bufPayloadSize = s.bufPayloadSize := rfl
@[simp] theorem setCommand_payload (b : Byte) (s : State) :
    (setCommand b s).payload = s.payload := rfl
@[simp] theorem setCommand_callback (b : Byte) (s : State) :
    (setCommand b s).callback = s.callback := rfl
@[simp] theorem setCommand_txId (b : Byte) (s : State) : (setCommand b s).txId = s.txId := rfl
@[simp] theorem setCommand_received (b : Byte) (s : State) :
    (setCommand b s).received = s.received := rfl
@[simp] theorem setCommand_delivered (b : Byte) (s : State) :
    (setCommand b s).delivered = s.delivered := rfl
@[simp] theorem setCommand_writes (b : Byte) (s : State) : (setCommand b s).writes = s.writes := rfl
@[simp] theorem setCommand_results (b : Byte) (s : State) :
    (setCommand b s).results = s.results := rfl
@[simp] theorem setCommand_requests (b : Byte) (s : State) :
    (setCommand b s).requests = s.requests := rfl
@[simp] theorem setCommand_reactions (b : Byte) (s : State) :
    (setCommand b s).reactions = s.reactions := rfl

/-! ### setId -/

@[simp] theorem setId_sync1Val (b : Byte) (s : State) : (setId b s).sync1Val = s.sync1Val := rfl
@[simp] theorem setId_sync2Val (b : Byte) (s : State) : (setId b s).sync2Val = s.sync2Val := rfl
@[simp] theorem setId_state (b : Byte) (s : State) : (setId b s).state = s.state := rfl
@[simp] theorem setId_payloadPosition (b : Byte) (s : State) :
    (setId b s).payloadPosition = s.payloadPosition := rfl
@[simp] theorem setId_previousId (b : Byte) (s : State) :
    (setId b s).previousId = s.previousId := rfl
@[simp] theorem setId_errors (b : Byte) (s : State) : (setId b s).errors = s.errors := rfl
@[simp] theorem setId_bufCommand (b : Byte) (s : State) :
    (setId b s).bufCommand = s.bufCommand := rfl
@[simp] theorem setId_bufId (b : Byte) (s : State) : (setId b s).bufId = b := rfl
@[simp] theorem setId_bufPayloadSize (b : Byte) (s : State) :
    (setId b s).bufPayloadSize = s.bufPayloadSize := rfl
@[simp] theorem setId_payload (b : Byte) (s : State) : (setId b s).payload = s.payload := rfl
@[simp] theorem setId_callback (b : Byte) (s : State) : (setId b s).callback = s.callback := rfl
@[simp] theorem setId_txId (b : Byte) (s : State) : (setId b s).txId = s.txId := rfl
@[simp] theorem setId_received (b : Byte) (s : State) : (setId b s).received = s.received := rfl
@[simp] theorem setId_delivered (b : Byte) (s : State) : (setId b s).delivered = s.delivered := rfl
@[simp] theorem setId_writes (b : Byte) (s : State) : (setId b s).writes = s.writes := rfl
@[simp] theorem setId_results (b : Byte) (s : State) : (setId b s).results = s.results := rfl
@[simp] theorem setId_requests (b : Byte) (s : State) : (setId b s).requests = s.requests := rfl
@[simp] theorem setId_reactions (b : Byte) (s : State) : (setId b s).reactions = s.reactions := rfl

/-! ### setSize -/

@[simp] theorem setSize_sync1Val (b : Byte) (s : State) : (setSize b s).sync1Val = s.sync1Val := rfl
@[simp] theorem setSize_sync2Val (b : Byte) (s : State) : (setSize b s).sync2Val = s.sync2Val := rfl
@[simp] theorem setSize_state (b : Byte) (s : State) : (setSize b s).state = s.state := rfl
@[simp] theorem setSize_payloadPosition (b : Byte) (s : State) :
    (setSize b s).payloadPosition = s.payloadPosition := rfl
@[simp] theorem setSize_previousId (b : Byte) (s : State) :
    (setSize b s).previousId = s.previousId := rfl
@[simp] theorem setSize_errors (b : Byte) (s : State) : (setSize b s).errors = s.errors := rfl
@[simp] theorem setSize_bufCommand (b : Byte) (s : State) :
    (setSize b s).bufCommand = s.bufCommand := rfl
@[simp] theorem setSize_bufId (b : Byte) (s : State) : (setSize b s).bufId = s.bufId := rfl
@[simp] theorem setSize_bufPayloadSize (b : Byte) (s : State) :
    (setSize b s).bufPayloadSize = b := rfl
@[simp] theorem setSize_payload (b : Byte) (s : State) : (setSize b s).payload = s.payload := rfl
@[simp] theorem setSize_callback (b : Byte) (s : State) : (setSize b s).callback = s.callback := rfl
@[simp] theorem setSize_txId (b : Byte) (s : State) : (setSize b s).txId = s.txId := rfl
@[simp] theorem setSize_received (b : Byte) (s : State) : (setSize b s).received = s.received := rfl
@[simp] theorem setSize_delivered (b : Byte) (s : State) :
    (setSize b s).delivered = s.delivered := rfl
@[simp] theorem setSize_writes (b : Byte) (s : State) : (setSize b s).writes = s.writes := rfl
@[simp] theorem setSize_results (b : Byte) (s : State) : (setSize b s).results = s.results := rfl
@[simp] theorem setSize_requests (b : Byte) (s : State) : (setSize b s).requests = s.requests := rfl
@[simp] theorem setSize_reactions (b : Byte) (s : State) :
    (setSize b s).reactions = s.reactions := rfl

/-! ### setPosition -/

@[simp] theorem setPosition_sync1Val (p : Byte) (s : State) :
    (setPosition p s).sync1Val = s.sync1Val := rfl
@[simp] theorem setPosition_sync2Val (p : Byte) (s : State) :
    (setPosition p s).sync2Val = s.sync2Val := rfl
@[simp] theorem setPosition_state (p : Byte) (s : State) : (setPosition p s).state = s.state := rfl
@[simp] theorem setPosition_payloadPosition (p : Byte) (s : State) :
    (setPosition p s).payloadPosition = p := rfl
@[simp] theorem setPosition_previousId (p : Byte) (s : State) :
    (setPosition p s).previousId = s.previousId := rfl
@[simp] theorem setPosition_errors (p : Byte) (s : State) :
    (setPosition p s).errors = s.errors := rfl
@[simp] theorem setPosition_bufCommand (p : Byte) (s : State) :
    (setPosition p s).bufCommand = s.bufCommand := rfl
@[simp] theorem setPosition_bufId (p : Byte) (s : State) : (setPosition p s).bufId = s.bufId := rfl
@[simp] theorem setPosition_bufPayloadSize (p : Byte) (s : State) :
    (setPosition p s).bufPayloadSize = s.bufPayloadSize := rfl
@[simp] theorem setPosition_payload (p : Byte) (s : State) :
    (setPosition p s).payload = s.payload := rfl
@[simp] theorem setPosition_callback (p : Byte) (s : State) :
    (setPosition p s).callback = s.callback := rfl
@[simp] theorem setPosition_txId (p : Byte) (s : State) : (setPosition p s).txId = s.txId := rfl
@[simp] theorem setPosition_received (p : Byte) (s : State) :
    (setPosition p s).received = s.received := rfl
@[simp] theorem setPosition_delivered (p : Byte) (s : State) :
    (setPosition p s).delivered = s.delivered := rfl
@[simp] theorem setPosition_writes (p : Byte) (s : State) :
    (setPosition p s).writes = s.writes := rfl
@[simp] theorem setPosition_results (p : Byte) (s : State) :
    (setPosition p s).results = s.results := rfl
@[simp] theorem setPosition_requests (p : Byte) (s : State) :
    (setPosition p s).requests = s.requests := rfl
@[simp] theorem setPosition_reactions (p : Byte) (s : State) :
    (setPosition p s).reactions = s.reactions := rfl

/-! ### setPayload -/

@[simp] theorem setPayload_sync1Val (m : Memory) (s : State) :
    (setPayload m s).sync1Val = s.sync1Val := rfl
@[simp] theorem setPayload_sync2Val (m : Memory) (s : State) :
    (setPayload m s).sync2Val = s.sync2Val := rfl
@[simp] theorem setPayload_state (m : Memory) (s : State) : (setPayload m s).state = s.state := rfl
@[simp] theorem setPayload_payloadPosition (m : Memory) (s : State) :
    (setPayload m s).payloadPosition = s.payloadPosition := rfl
@[simp] theorem setPayload_previousId (m : Memory) (s : State) :
    (setPayload m s).previousId = s.previousId := rfl
@[simp] theorem setPayload_errors (m : Memory) (s : State) :
    (setPayload m s).errors = s.errors := rfl
@[simp] theorem setPayload_bufCommand (m : Memory) (s : State) :
    (setPayload m s).bufCommand = s.bufCommand := rfl
@[simp] theorem setPayload_bufId (m : Memory) (s : State) : (setPayload m s).bufId = s.bufId := rfl
@[simp] theorem setPayload_bufPayloadSize (m : Memory) (s : State) :
    (setPayload m s).bufPayloadSize = s.bufPayloadSize := rfl
@[simp] theorem setPayload_payload (m : Memory) (s : State) : (setPayload m s).payload = m := rfl
@[simp] theorem setPayload_callback (m : Memory) (s : State) :
    (setPayload m s).callback = s.callback := rfl
@[simp] theorem setPayload_txId (m : Memory) (s : State) : (setPayload m s).txId = s.txId := rfl
@[simp] theorem setPayload_received (m : Memory) (s : State) :
    (setPayload m s).received = s.received := rfl
@[simp] theorem setPayload_delivered (m : Memory) (s : State) :
    (setPayload m s).delivered = s.delivered := rfl
@[simp] theorem setPayload_writes (m : Memory) (s : State) :
    (setPayload m s).writes = s.writes := rfl
@[simp] theorem setPayload_results (m : Memory) (s : State) :
    (setPayload m s).results = s.results := rfl
@[simp] theorem setPayload_requests (m : Memory) (s : State) :
    (setPayload m s).requests = s.requests := rfl
@[simp] theorem setPayload_reactions (m : Memory) (s : State) :
    (setPayload m s).reactions = s.reactions := rfl

/-! ### recordId -/

@[simp] theorem recordId_sync1Val (s : State) : (recordId s).sync1Val = s.sync1Val := rfl
@[simp] theorem recordId_sync2Val (s : State) : (recordId s).sync2Val = s.sync2Val := rfl
@[simp] theorem recordId_state (s : State) : (recordId s).state = s.state := rfl
@[simp] theorem recordId_payloadPosition (s : State) :
    (recordId s).payloadPosition = s.payloadPosition := rfl
@[simp] theorem recordId_previousId (s : State) : (recordId s).previousId = s.bufId := rfl
@[simp] theorem recordId_errors (s : State) : (recordId s).errors = s.errors := rfl
@[simp] theorem recordId_bufCommand (s : State) : (recordId s).bufCommand = s.bufCommand := rfl
@[simp] theorem recordId_bufId (s : State) : (recordId s).bufId = s.bufId := rfl
@[simp] theorem recordId_bufPayloadSize (s : State) :
    (recordId s).bufPayloadSize = s.bufPayloadSize := rfl
@[simp] theorem recordId_payload (s : State) : (recordId s).payload = s.payload := rfl
@[simp] theorem recordId_callback (s : State) : (recordId s).callback = s.callback := rfl
@[simp] theorem recordId_txId (s : State) : (recordId s).txId = s.txId := rfl
@[simp] theorem recordId_received (s : State) : (recordId s).received = s.received := rfl
@[simp] theorem recordId_delivered (s : State) : (recordId s).delivered = s.delivered := rfl
@[simp] theorem recordId_writes (s : State) : (recordId s).writes = s.writes := rfl
@[simp] theorem recordId_results (s : State) : (recordId s).results = s.results := rfl
@[simp] theorem recordId_requests (s : State) : (recordId s).requests = s.requests := rfl
@[simp] theorem recordId_reactions (s : State) : (recordId s).reactions = s.reactions := rfl

/-! ### setRequests -/

@[simp] theorem setRequests_sync1Val (bs : List Byte) (s : State) :
    (setRequests bs s).sync1Val = s.sync1Val := rfl
@[simp] theorem setRequests_sync2Val (bs : List Byte) (s : State) :
    (setRequests bs s).sync2Val = s.sync2Val := rfl
@[simp] theorem setRequests_state (bs : List Byte) (s : State) :
    (setRequests bs s).state = s.state := rfl
@[simp] theorem setRequests_payloadPosition (bs : List Byte) (s : State) :
    (setRequests bs s).payloadPosition = s.payloadPosition := rfl
@[simp] theorem setRequests_previousId (bs : List Byte) (s : State) :
    (setRequests bs s).previousId = s.previousId := rfl
@[simp] theorem setRequests_errors (bs : List Byte) (s : State) :
    (setRequests bs s).errors = s.errors := rfl
@[simp] theorem setRequests_bufCommand (bs : List Byte) (s : State) :
    (setRequests bs s).bufCommand = s.bufCommand := rfl
@[simp] theorem setRequests_bufId (bs : List Byte) (s : State) :
    (setRequests bs s).bufId = s.bufId := rfl
@[simp] theorem setRequests_bufPayloadSize (bs : List Byte) (s : State) :
    (setRequests bs s).bufPayloadSize = s.bufPayloadSize := rfl
@[simp] theorem setRequests_payload (bs : List Byte) (s : State) :
    (setRequests bs s).payload = s.payload := rfl
@[simp] theorem setRequests_callback (bs : List Byte) (s : State) :
    (setRequests bs s).callback = s.callback := rfl
@[simp] theorem setRequests_txId (bs : List Byte) (s : State) :
    (setRequests bs s).txId = s.txId := rfl
@[simp] theorem setRequests_received (bs : List Byte) (s : State) :
    (setRequests bs s).received = s.received := rfl
@[simp] theorem setRequests_delivered (bs : List Byte) (s : State) :
    (setRequests bs s).delivered = s.delivered := rfl
@[simp] theorem setRequests_writes (bs : List Byte) (s : State) :
    (setRequests bs s).writes = s.writes := rfl
@[simp] theorem setRequests_results (bs : List Byte) (s : State) :
    (setRequests bs s).results = s.results := rfl
@[simp] theorem setRequests_requests (bs : List Byte) (s : State) :
    (setRequests bs s).requests = bs := rfl
@[simp] theorem setRequests_reactions (bs : List Byte) (s : State) :
    (setRequests bs s).reactions = s.reactions := rfl

/-! ### raiseFramingError -/

@[simp] theorem raiseFramingError_sync1Val (k : FramingError) (s : State) :
    (raiseFramingError k s).sync1Val = s.sync1Val := rfl
@[simp] theorem raiseFramingError_sync2Val (k : FramingError) (s : State) :
    (raiseFramingError k s).sync2Val = s.sync2Val := rfl
@[simp] theorem raiseFramingError_state (k : FramingError) (s : State) :
    (raiseFramingError k s).state = .sync1 := rfl
@[simp] theorem raiseFramingError_payloadPosition (k : FramingError) (s : State) :
    (raiseFramingError k s).payloadPosition = s.payloadPosition := rfl
@[simp] theorem raiseFramingError_previousId (k : FramingError) (s : State) :
    (raiseFramingError k s).previousId = s.previousId := rfl
@[simp] theorem raiseFramingError_errors (k : FramingError) (s : State) :
    (raiseFramingError k s).errors = incSat s.errors := rfl
@[simp] theorem raiseFramingError_bufCommand (k : FramingError) (s : State) :
    (raiseFramingError k s).bufCommand = s.bufCommand := rfl
@[simp] theorem raiseFramingError_bufId (k : FramingError) (s : State) :
    (raiseFramingError k s).bufId = s.bufId := rfl
@[simp] theorem raiseFramingError_bufPayloadSize (k : FramingError) (s : State) :
    (raiseFramingError k s).bufPayloadSize = s.bufPayloadSize := rfl
@[simp] theorem raiseFramingError_payload (k : FramingError) (s : State) :
    (raiseFramingError k s).payload = s.payload := rfl
@[simp] theorem raiseFramingError_callback (k : FramingError) (s : State) :
    (raiseFramingError k s).callback = s.callback := rfl
@[simp] theorem raiseFramingError_txId (k : FramingError) (s : State) :
    (raiseFramingError k s).txId = s.txId := rfl
@[simp] theorem raiseFramingError_received (k : FramingError) (s : State) :
    (raiseFramingError k s).received = s.received := rfl
@[simp] theorem raiseFramingError_delivered (k : FramingError) (s : State) :
    (raiseFramingError k s).delivered = s.delivered := rfl
@[simp] theorem raiseFramingError_writes (k : FramingError) (s : State) :
    (raiseFramingError k s).writes = s.writes := rfl
@[simp] theorem raiseFramingError_results (k : FramingError) (s : State) :
    (raiseFramingError k s).results = s.results := rfl
@[simp] theorem raiseFramingError_requests (k : FramingError) (s : State) :
    (raiseFramingError k s).requests = s.requests := rfl
@[simp] theorem raiseFramingError_reactions (k : FramingError) (s : State) :
    (raiseFramingError k s).reactions = s.reactions := rfl

/-! ### initialise -/

@[simp] theorem initialise_sync1Val (h : Handler) (s : State) :
    (initialise h s).sync1Val = s.sync1Val := rfl
@[simp] theorem initialise_sync2Val (h : Handler) (s : State) :
    (initialise h s).sync2Val = s.sync2Val := rfl
@[simp] theorem initialise_state (h : Handler) (s : State) : (initialise h s).state = .sync1 := rfl
@[simp] theorem initialise_payloadPosition (h : Handler) (s : State) :
    (initialise h s).payloadPosition = 0#8 := rfl
@[simp] theorem initialise_previousId (h : Handler) (s : State) :
    (initialise h s).previousId = 0#8 := rfl
@[simp] theorem initialise_errors (h : Handler) (s : State) : (initialise h s).errors = 0#8 := rfl
@[simp] theorem initialise_bufCommand (h : Handler) (s : State) :
    (initialise h s).bufCommand = s.bufCommand := rfl
@[simp] theorem initialise_bufId (h : Handler) (s : State) : (initialise h s).bufId = s.bufId := rfl
@[simp] theorem initialise_bufPayloadSize (h : Handler) (s : State) :
    (initialise h s).bufPayloadSize = s.bufPayloadSize := rfl
@[simp] theorem initialise_payload (h : Handler) (s : State) :
    (initialise h s).payload = s.payload := rfl
@[simp] theorem initialise_callback (h : Handler) (s : State) :
    (initialise h s).callback = some h := rfl
@[simp] theorem initialise_txId (h : Handler) (s : State) : (initialise h s).txId = 0#8 := rfl
@[simp] theorem initialise_received (h : Handler) (s : State) :
    (initialise h s).received = s.received := rfl
@[simp] theorem initialise_delivered (h : Handler) (s : State) :
    (initialise h s).delivered = s.delivered := rfl
@[simp] theorem initialise_writes (h : Handler) (s : State) :
    (initialise h s).writes = s.writes := rfl
@[simp] theorem initialise_results (h : Handler) (s : State) :
    (initialise h s).results = s.results := rfl
@[simp] theorem initialise_requests (h : Handler) (s : State) :
    (initialise h s).requests = s.requests := rfl
@[simp] theorem initialise_reactions (h : Handler) (s : State) :
    (initialise h s).reactions = s.reactions := rfl

/-! ### rejectCall -/

@[simp] theorem rejectCall_sync1Val (s : State) : (rejectCall s).sync1Val = s.sync1Val := rfl
@[simp] theorem rejectCall_sync2Val (s : State) : (rejectCall s).sync2Val = s.sync2Val := rfl
@[simp] theorem rejectCall_state (s : State) : (rejectCall s).state = s.state := rfl
@[simp] theorem rejectCall_payloadPosition (s : State) :
    (rejectCall s).payloadPosition = s.payloadPosition := rfl
@[simp] theorem rejectCall_previousId (s : State) : (rejectCall s).previousId = s.previousId := rfl
@[simp] theorem rejectCall_errors (s : State) : (rejectCall s).errors = s.errors := rfl
@[simp] theorem rejectCall_bufCommand (s : State) : (rejectCall s).bufCommand = s.bufCommand := rfl
@[simp] theorem rejectCall_bufId (s : State) : (rejectCall s).bufId = s.bufId := rfl
@[simp] theorem rejectCall_bufPayloadSize (s : State) :
    (rejectCall s).bufPayloadSize = s.bufPayloadSize := rfl
@[simp] theorem rejectCall_payload (s : State) : (rejectCall s).payload = s.payload := rfl
@[simp] theorem rejectCall_callback (s : State) : (rejectCall s).callback = s.callback := rfl
@[simp] theorem rejectCall_txId (s : State) : (rejectCall s).txId = s.txId := rfl
@[simp] theorem rejectCall_received (s : State) : (rejectCall s).received = s.received := rfl
@[simp] theorem rejectCall_delivered (s : State) : (rejectCall s).delivered = s.delivered := rfl
@[simp] theorem rejectCall_writes (s : State) : (rejectCall s).writes = s.writes := rfl
@[simp] theorem rejectCall_results (s : State) :
    (rejectCall s).results = s.results ++ [.errOversize] := rfl
@[simp] theorem rejectCall_requests (s : State) : (rejectCall s).requests = s.requests := rfl
@[simp] theorem rejectCall_reactions (s : State) : (rejectCall s).reactions = s.reactions := rfl

/-! ### acceptCall -/

@[simp] theorem acceptCall_sync1Val (tx : TxCall) (s : State) :
    (acceptCall tx s).sync1Val = s.sync1Val := rfl
@[simp] theorem acceptCall_sync2Val (tx : TxCall) (s : State) :
    (acceptCall tx s).sync2Val = s.sync2Val := rfl
@[simp] theorem acceptCall_state (tx : TxCall) (s : State) :
    (acceptCall tx s).state = s.state := rfl
@[simp] theorem acceptCall_payloadPosition (tx : TxCall) (s : State) :
    (acceptCall tx s).payloadPosition = s.payloadPosition := rfl
@[simp] theorem acceptCall_previousId (tx : TxCall) (s : State) :
    (acceptCall tx s).previousId = s.previousId := rfl
@[simp] theorem acceptCall_errors (tx : TxCall) (s : State) :
    (acceptCall tx s).errors = s.errors := rfl
@[simp] theorem acceptCall_bufCommand (tx : TxCall) (s : State) :
    (acceptCall tx s).bufCommand = s.bufCommand := rfl
@[simp] theorem acceptCall_bufId (tx : TxCall) (s : State) :
    (acceptCall tx s).bufId = s.bufId := rfl
@[simp] theorem acceptCall_bufPayloadSize (tx : TxCall) (s : State) :
    (acceptCall tx s).bufPayloadSize = s.bufPayloadSize := rfl
@[simp] theorem acceptCall_payload (tx : TxCall) (s : State) :
    (acceptCall tx s).payload = s.payload := rfl
@[simp] theorem acceptCall_callback (tx : TxCall) (s : State) :
    (acceptCall tx s).callback = s.callback := rfl
@[simp] theorem acceptCall_txId (tx : TxCall) (s : State) :
    (acceptCall tx s).txId = nextId s.txId := rfl
@[simp] theorem acceptCall_received (tx : TxCall) (s : State) :
    (acceptCall tx s).received = s.received := rfl
@[simp] theorem acceptCall_delivered (tx : TxCall) (s : State) :
    (acceptCall tx s).delivered = s.delivered := rfl
@[simp] theorem acceptCall_writes (tx : TxCall) (s : State) :
    (acceptCall tx s).writes = s.writes ++ List.replicate (attempts tx.retries) (frameBytes s (txMessage tx s)) := rfl
@[simp] theorem acceptCall_results (tx : TxCall) (s : State) :
    (acceptCall tx s).results = s.results ++ [.ok] := rfl
@[simp] theorem acceptCall_requests (tx : TxCall) (s : State) :
    (acceptCall tx s).requests = s.requests := rfl
@[simp] theorem acceptCall_reactions (tx : TxCall) (s : State) :
    (acceptCall tx s).reactions = s.reactions := rfl

/-! ### recordDelivery -/

@[simp] theorem recordDelivery_sync1Val (h : Handler) (s : State) :
    (recordDelivery h s).sync1Val = s.sync1Val := rfl
@[simp] theorem recordDelivery_sync2Val (h : Handler) (s : State) :
    (recordDelivery h s).sync2Val = s.sync2Val := rfl
@[simp] theorem recordDelivery_state (h : Handler) (s : State) :
    (recordDelivery h s).state = s.state := rfl
@[simp] theorem recordDelivery_payloadPosition (h : Handler) (s : State) :
    (recordDelivery h s).payloadPosition = s.payloadPosition := rfl
@[simp] theorem recordDelivery_previousId (h : Handler) (s : State) :
    (recordDelivery h s).previousId = s.previousId := rfl
@[simp] theorem recordDelivery_errors (h : Handler) (s : State) :
    (recordDelivery h s).errors = s.errors := rfl
@[simp] theorem recordDelivery_bufCommand (h : Handler) (s : State) :
    (recordDelivery h s).bufCommand = s.bufCommand := rfl
@[simp] theorem recordDelivery_bufId (h : Handler) (s : State) :
    (recordDelivery h s).bufId = s.bufId := rfl
@[simp] theorem recordDelivery_bufPayloadSize (h : Handler) (s : State) :
    (recordDelivery h s).bufPayloadSize = s.bufPayloadSize := rfl
@[simp] theorem recordDelivery_payload (h : Handler) (s : State) :
    (recordDelivery h s).payload = s.payload := rfl
@[simp] theorem recordDelivery_callback (h : Handler) (s : State) :
    (recordDelivery h s).callback = s.callback := rfl
@[simp] theorem recordDelivery_txId (h : Handler) (s : State) :
    (recordDelivery h s).txId = s.txId := rfl
@[simp] theorem recordDelivery_received (h : Handler) (s : State) :
    (recordDelivery h s).received = s.received := rfl
@[simp] theorem recordDelivery_delivered (h : Handler) (s : State) :
    (recordDelivery h s).delivered = s.delivered ++ [delivery h s] := rfl
@[simp] theorem recordDelivery_writes (h : Handler) (s : State) :
    (recordDelivery h s).writes = s.writes := rfl
@[simp] theorem recordDelivery_results (h : Handler) (s : State) :
    (recordDelivery h s).results = s.results := rfl
@[simp] theorem recordDelivery_requests (h : Handler) (s : State) :
    (recordDelivery h s).requests = s.requests := rfl
@[simp] theorem recordDelivery_reactions (h : Handler) (s : State) :
    (recordDelivery h s).reactions = s.reactions.tail := rfl

end Sys2Proof.Machine
end

