-- ==== Sys2Proof/Laws/Ops.lean ====
section
/-! SUPPORT. One lemma per shared operation of Machine/Ops.lean that says everything it can do. -/

namespace Sys2Proof.Machine

/-! ### andThen, whenInitialised, onlyWhen -/

@[simp] theorem andThen_of_next (s : State) (f : State → Result) : andThen (.next s) f = f s := rfl
@[simp] theorem andThen_of_fault (e : Fault) (f : State → Result) :
    andThen (.fault e) f = .fault e := rfl
@[simp] theorem andThen_of_refused (e : Refusal) (f : State → Result) :
    andThen (.refused e) f = .refused e := rfl

/-- A sequence answers a next state exactly when both parts do. -/
theorem andThen_next_iff {r : Result} {f : State → Result} {t : State} :
    andThen r f = .next t ↔ ∃ s, r = .next s ∧ f s = .next t := by
  cases r <;> simp [andThen]

/-- A sequence faults exactly when a part does. -/
theorem andThen_fault_iff {r : Result} {f : State → Result} {e : Fault} :
    andThen r f = .fault e ↔ r = .fault e ∨ ∃ s, r = .next s ∧ f s = .fault e := by
  cases r <;> simp [andThen]

theorem andThen_assoc (r : Result) (f g : State → Result) :
    andThen (andThen r f) g = andThen r fun s => andThen (f s) g := by
  cases r <;> rfl

theorem whenInitialised_none {s : State} (h : s.callback = none) (f : State → Result) :
    whenInitialised s f = .refused .beforeInit := by
  simp [whenInitialised, h]

theorem whenInitialised_bound {s : State} (h : s.callback ≠ none) (f : State → Result) :
    whenInitialised s f = f s := by
  unfold whenInitialised
  split
  · exact absurd ‹_› h
  · rfl

theorem onlyWhen_none {m : String} {c : Bool} {s : State} (h : s.callback = none)
    (f : State → Result) : onlyWhen m c s f = .refused .beforeInit :=
  whenInitialised_none h _

theorem onlyWhen_true {m : String} {c : Bool} {s : State} (h : s.callback ≠ none) (hc : c = true)
    (f : State → Result) : onlyWhen m c s f = f s := by
  simp [onlyWhen, whenInitialised_bound h, hc]

theorem onlyWhen_false {m : String} {c : Bool} {s : State} (h : s.callback ≠ none)
    (hc : c = false) (f : State → Result) : onlyWhen m c s f = .refused (.whenNotMet m) := by
  simp [onlyWhen, whenInitialised_bound h, hc]

/-- A guarded row answers a next state only after INIT, where its condition holds. -/
theorem onlyWhen_next {m : String} {c : Bool} {s t : State} {f : State → Result}
    (h : onlyWhen m c s f = .next t) : s.callback ≠ none ∧ c = true ∧ f s = .next t := by
  by_cases hs : s.callback = none
  · simp [onlyWhen_none hs] at h
  · cases c with
    | false => simp [onlyWhen_false hs rfl] at h
    | true => exact ⟨hs, rfl, by rwa [onlyWhen_true hs rfl] at h⟩

/-- A guarded row faults only where its effect does. -/
theorem onlyWhen_fault {m : String} {c : Bool} {s : State} {e : Fault} {f : State → Result}
    (h : onlyWhen m c s f = .fault e) : s.callback ≠ none ∧ c = true ∧ f s = .fault e := by
  by_cases hs : s.callback = none
  · simp [onlyWhen_none hs] at h
  · cases c with
    | false => simp [onlyWhen_false hs rfl] at h
    | true => exact ⟨hs, rfl, by rwa [onlyWhen_true hs rfl] at h⟩

/-! ### Arithmetic -/

/-- `inc_sat` on the count (10_state.md R27). -/
theorem incSat_toNat (e : Byte) : (incSat e).toNat = min (e.toNat + 1) 255 := by
  revert e; decide

theorem nextPosition_toNat {p : Byte} (h : p.toNat < 255) :
    (nextPosition p).toNat = p.toNat + 1 := by
  simp only [nextPosition, BitVec.toNat_add, BitVec.toNat_ofNat]
  omega

theorem isOversize_iff (b : Byte) : isOversize b = true ↔ 65 ≤ b.toNat := by
  simp [isOversize, Config.maxPayloadSize, Nat.lt_iff_add_one_le]

theorem isOversize_false_iff (b : Byte) : isOversize b = false ↔ b.toNat ≤ 64 := by
  rw [← Bool.not_eq_true, isOversize_iff]
  omega

/-! ### TRANSMIT and the handler's calls -/

/-- TRANSMIT is rejected, or accepted with its payload supplied. -/
theorem transmit_next {tx : TxCall} {s t : State} (h : transmit tx s = .next t) :
    (isOversize tx.payloadSize = true ∧ t = rejectCall s) ∨
      (isOversize tx.payloadSize = false ∧ payloadSupplied tx = true ∧ t = acceptCall tx s) := by
  cases ho : isOversize tx.payloadSize with
  | true => exact .inl ⟨rfl, by simpa [transmit, ho] using h.symm⟩
  | false =>
    cases hp : payloadSupplied tx with
    | true => exact .inr ⟨rfl, rfl, by simpa [transmit, ho, hp] using h.symm⟩
    | false => simp [transmit, ho, hp] at h

theorem transmit_ne_fault (tx : TxCall) (s : State) (e : Fault) : transmit tx s ≠ .fault e := by
  unfold transmit
  split <;> [simp; (split <;> simp)]

/-- A status report is a message the encoder always accepts: its call is legal and supplied, and sends
at most 64 bytes of the open layout (44_command_vocabulary.md R184). -/
theorem transmit_statusCall (v : StatusValues) (r : Byte) (s u : State) :
    transmit (statusCall v r s) u = .next (acceptCall (statusCall v r s) u) := by
  have hn : (statusCall v r s).payloadSize.toNat ≤ 64 := by
    have := (Config.statusSize (statusReport v s)).isLt
    simp only [statusCall, BitVec.toNat_ofNat]
    omega
  have hp : payloadSupplied (statusCall v r s) = true := by
    simpa [payloadSupplied, statusCall] using hn
  simp [transmit, (isOversize_false_iff _).mpr hn, hp]

/-- `t` differs from `s` in the encoder's register and outputs only, and no output is taken back. -/
structure OnlySends (s t : State) : Prop where
  frame : t = { s with txId := t.txId, writes := t.writes, results := t.results }
  writes : s.writes <+: t.writes
  results : s.results <+: t.results

theorem OnlySends.refl (s : State) : OnlySends s s :=
  ⟨rfl, List.prefix_refl _, List.prefix_refl _⟩

theorem OnlySends.trans {s t u : State} (h : OnlySends s t) (h' : OnlySends t u) :
    OnlySends s u :=
  ⟨by rw [h'.frame, h.frame], h.writes.trans h'.writes, h.results.trans h'.results⟩

theorem transmit_onlySends {tx : TxCall} {s t : State} (h : transmit tx s = .next t) :
    OnlySends s t := by
  rcases transmit_next h with ⟨-, rfl⟩ | ⟨-, -, rfl⟩
  · exact ⟨rfl, List.prefix_refl _, List.prefix_append _ _⟩
  · exact ⟨rfl, List.prefix_append _ _, List.prefix_append _ _⟩

/-- The handler's calls only send, when they have a step. -/
theorem runCalls_onlySends {cs : List HandlerCall} {s t : State} (h : runCalls cs s = .next t) :
    OnlySends s t := by
  induction cs generalizing s with
  | nil =>
    obtain rfl : s = t := by simpa [runCalls] using h
    exact OnlySends.refl s
  | cons c cs ih =>
    obtain ⟨u, hu, ht⟩ := andThen_next_iff.mp h
    cases c with
    | transmit tx => exact (transmit_onlySends hu).trans (ih ht)
    | reportStatus v r => exact (transmit_onlySends hu).trans (ih ht)
    | consume b => simp [runCall] at hu
    | onSilence => simp [runCall] at hu
    | init h => simp [runCall] at hu
    | writeBuffer k b => simp [runCall] at hu

theorem runCalls_ne_fault (cs : List HandlerCall) (s : State) (e : Fault) :
    runCalls cs s ≠ .fault e := by
  induction cs generalizing s with
  | nil => simp [runCalls]
  | cons c cs ih =>
    intro h
    rcases andThen_fault_iff.mp h with h | ⟨u, -, h⟩
    · cases c with
      | transmit tx => exact transmit_ne_fault _ _ _ h
      | reportStatus v r => exact transmit_ne_fault _ _ _ h
      | consume b => simp [runCall] at h
      | onSilence => simp [runCall] at h
      | init h' => simp [runCall] at h
      | writeBuffer k b => simp [runCall] at h
    · exact ih u h

/-- The handler's calls write nothing of the decoder and read only its `errors`, so they commute with
any change of it that leaves `errors`, the sync values and the encoder alone. -/
theorem runCalls_commutes {g : State → State} (he : ∀ s, (g s).errors = s.errors)
    (hr : ∀ s, rejectCall (g s) = g (rejectCall s))
    (ha : ∀ tx s, acceptCall tx (g s) = g (acceptCall tx s)) (cs : List HandlerCall) (s : State) :
    runCalls cs (g s) = andThen (runCalls cs s) fun t => .next (g t) := by
  have send (tx : TxCall) (cs : List HandlerCall)
      (ih : ∀ s, runCalls cs (g s) = andThen (runCalls cs s) fun t => .next (g t)) (s : State) :
      andThen (transmit tx (g s)) (runCalls cs) =
        andThen (andThen (transmit tx s) (runCalls cs)) fun t => .next (g t) := by
    unfold transmit
    split
    · simp only [andThen_of_next, hr, ih]
    · split
      · simp only [andThen_of_next, ha, ih]
      · rfl
  induction cs generalizing s with
  | nil => rfl
  | cons c cs ih =>
    cases c with
    | transmit tx => exact send tx cs ih s
    | reportStatus v r =>
      have hc : statusCall v r (g s) = statusCall v r s := by simp [statusCall, statusReport, he]
      simp only [runCalls, runCall, hc]
      exact send _ cs ih s
    | consume b => rfl
    | onSilence => rfl
    | init h => rfl
    | writeBuffer k b => rfl

/-! ### Completion -/

/-- COMPLETE: a handler is bound, the delivery is recorded with `previousId` already written, the
handler's calls only send, and `state` ends at SYNC_1. -/
theorem complete_next {s t : State} (h : complete s = .next t) :
    ∃ k u, s.callback = some k ∧
      runCalls (nextCalls s) (recordDelivery k (recordId s)) = .next u ∧ t = goTo .sync1 u := by
  obtain ⟨u, hu, ht⟩ := andThen_next_iff.mp h
  unfold deliver at hu
  split at hu
  · simp at hu
  · exact ⟨_, u, by simpa using ‹_›, hu, by simpa using ht.symm⟩

/-- COMPLETE with a handler that makes no call. -/
theorem complete_quiet {s : State} {k : Handler} (hk : s.callback = some k)
    (hq : nextCalls s = []) :
    complete s = .next (goTo .sync1 (recordDelivery k (recordId s))) := by
  have hq' : nextCalls (recordId s) = [] := hq
  simp [complete, deliver, hk, hq', runCalls]

theorem complete_ne_fault (s : State) (e : Fault) : complete s ≠ .fault e := by
  intro h
  rcases andThen_fault_iff.mp h with h | ⟨u, -, h⟩
  · unfold deliver at h
    split at h
    · simp at h
    · exact runCalls_ne_fault _ _ _ h
  · simp at h

/-- A byte completes a frame exactly where its row is RX.SIZE.ZERO or RX.PAYLOAD.LAST (41_decoder.md
R136). -/
theorem completesFrame_iff {b : Byte} {s : State} :
    completesFrame b s = true ↔
      (s.state = .payloadSize ∧ b = 0#8) ∨
        (s.state = .payload ∧ s.payloadPosition.toNat + 1 = s.bufPayloadSize.toNat) := by
  cases hs : s.state <;> simp [completesFrame, hs]

/-! ### The payload store -/

/-- The store and the increment, or the fault outside the buffer. -/
theorem storePayload_inside {b : Byte} {s : State} (h : s.payloadPosition.toNat < 64) :
    storePayload b s =
      .next (setPosition (nextPosition s.payloadPosition)
        (setPayload (memWrite s.payload s.payloadPosition.toNat b) s)) := by
  simp [storePayload, Config.maxPayloadSize, h]

theorem storePayload_outside {b : Byte} {s : State} (h : 64 ≤ s.payloadPosition.toNat) :
    storePayload b s = .fault (.payloadIndexOutOfRange s.payloadPosition.toNat) := by
  simp [storePayload, Config.maxPayloadSize, Nat.not_lt.mpr h]

theorem storePayload_next {b : Byte} {s t : State} (h : storePayload b s = .next t) :
    s.payloadPosition.toNat < 64 ∧
      t = setPosition (nextPosition s.payloadPosition)
        (setPayload (memWrite s.payload s.payloadPosition.toNat b) s) := by
  by_cases hp : s.payloadPosition.toNat < 64
  · rw [storePayload_inside hp] at h
    exact ⟨hp, by simpa using h.symm⟩
  · rw [storePayload_outside (by omega)] at h
    simp at h

/-! ### CONSUME -/

theorem consume_bound {s : State} (b : Byte) (h : s.callback ≠ none) :
    consume b s = consumeByte b (noteByte b s) := whenInitialised_bound h _

/-- What a CONSUME that answers a next state did: one of the branches of 41_decoder.md R121. -/
theorem consumeByte_next {b : Byte} {s t : State} (h : consumeByte b s = .next t) :
    (s.state = .sync1 ∧ t = if b = s.sync1Val then goTo .sync2 s else s) ∨
    (s.state = .sync2 ∧ b = s.sync2Val ∧ t = goTo .cmd s) ∨
    (s.state = .sync2 ∧ b ≠ s.sync2Val ∧ b = s.sync1Val ∧
      t = goTo .sync2 (raiseFramingError .sync2 s)) ∨
    (s.state = .sync2 ∧ b ≠ s.sync2Val ∧ b ≠ s.sync1Val ∧ t = raiseFramingError .sync2 s) ∨
    (s.state = .cmd ∧ t = goTo .id (setCommand b s)) ∨
    (s.state = .id ∧ t = goTo .payloadSize (setId b s)) ∨
    (s.state = .payloadSize ∧ isOversize b = true ∧
      t = raiseFramingError .oversize (setSize b s)) ∨
    (s.state = .payloadSize ∧ b = 0#8 ∧ complete (setPosition 0#8 (setSize b s)) = .next t) ∨
    (s.state = .payloadSize ∧ isOversize b = false ∧ b ≠ 0#8 ∧
      t = goTo .payload (setPosition 0#8 (setSize b s))) ∨
    (s.state = .payload ∧ ∃ u, storePayload b s = .next u ∧
      ((u.payloadPosition ≠ u.bufPayloadSize ∧ t = u) ∨
        (u.payloadPosition = u.bufPayloadSize ∧ complete u = .next t))) := by
  unfold consumeByte at h
  split at h
  case h_1 hs => exact .inl ⟨hs, by simpa using h.symm⟩
  case h_2 hs =>
    right
    obtain rfl := by simpa using h
    by_cases h2 : b = s.sync2Val
    · exact .inl ⟨hs, h2, by simp [h2]⟩
    · by_cases h1 : b = s.sync1Val
      · exact .inr (.inl ⟨hs, h2, h1, by rw [if_neg h2, if_pos h1]⟩)
      · exact .inr (.inr (.inl ⟨hs, h2, h1, by rw [if_neg h2, if_neg h1]⟩))
  case h_3 hs => exact .inr (.inr (.inr (.inr (.inl ⟨hs, by simpa using h.symm⟩))))
  case h_4 hs => exact .inr (.inr (.inr (.inr (.inr (.inl ⟨hs, by simpa using h.symm⟩)))))
  case h_5 hs =>
    iterate 6 right
    split at h
    · exact .inl ⟨hs, ‹_›, by simpa using h.symm⟩
    · split at h
      · exact .inr (.inl ⟨hs, ‹_›, h⟩)
      · exact .inr (.inr (.inl ⟨hs, by simpa using ‹¬ isOversize b = true›, ‹_›,
          by simpa using h.symm⟩))
  case h_6 hs =>
    iterate 9 right
    obtain ⟨u, hu, ht⟩ := andThen_next_iff.mp h
    refine ⟨hs, u, hu, ?_⟩
    split at ht
    · exact .inr ⟨‹_›, ht⟩
    · exact .inl ⟨‹_›, by simpa using ht.symm⟩

theorem consume_next {b : Byte} {s t : State} (h : consume b s = .next t) :
    s.callback ≠ none ∧ consumeByte b (noteByte b s) = .next t := by
  by_cases hs : s.callback = none
  · simp [consume, whenInitialised_none hs] at h
  · exact ⟨hs, by rwa [consume_bound b hs] at h⟩

@[simp] theorem consumeAll_nil (s : State) : consumeAll [] s = .next s := rfl

theorem consumeAll_cons (b : Byte) (bs : List Byte) (s : State) :
    consumeAll (b :: bs) s = andThen (consume b s) (consumeAll bs) := rfl

theorem consumeAll_append (as bs : List Byte) (s : State) :
    consumeAll (as ++ bs) s = andThen (consumeAll as s) (consumeAll bs) := by
  induction as generalizing s with
  | nil => rfl
  | cons a as ih =>
    rw [List.cons_append, consumeAll_cons, consumeAll_cons, andThen_assoc]
    congr 1
    funext t
    exact ih t

/-- A relation that every CONSUME keeps is kept by a run of them. -/
theorem consumeAll_keeps {R : State → State → Prop} (refl : ∀ s, R s s)
    (trans : ∀ {s t u}, R s t → R t u → R s u)
    (one : ∀ {b s t}, consume b s = .next t → R s t) {bs : List Byte} {s t : State}
    (h : consumeAll bs s = .next t) : R s t := by
  induction bs generalizing s with
  | nil =>
    obtain rfl : s = t := by simpa using h
    exact refl s
  | cons b bs ih =>
    obtain ⟨u, hu, ht⟩ := andThen_next_iff.mp h
    exact trans (one hu) (ih ht)

end Sys2Proof.Machine
end

