-- ==== Sys2Proof/Laws/Exec.lean ====
section
/-! SUPPORT. What `exec` and `step` can do, said once: a transition is the CONSUME of its byte, and a
next state comes from an INIT, a silence reset, a TRANSMIT, or a run of CONSUMEs. -/

namespace Sys2Proof.Machine

/-! ### A transition whose condition holds is the CONSUME of its byte -/

theorem rxSync1Match_eq_consume {s : State} {b : Byte} (h : s.callback ≠ none)
    (hs : s.state = .sync1) (hb : b = s.sync1Val) : exec (.rxSync1Match b) s = consume b s := by
  rw [consume_bound b h]
  simp only [exec, execRxSync1Match]
  rw [onlyWhen_true h (by simp [hs, hb])]
  simp [consumeByte, hs, hb]

theorem rxSync1Miss_eq_consume {s : State} {b : Byte} (h : s.callback ≠ none)
    (hs : s.state = .sync1) (hb : b ≠ s.sync1Val) : exec (.rxSync1Miss b) s = consume b s := by
  rw [consume_bound b h]
  simp only [exec, execRxSync1Miss]
  rw [onlyWhen_true h (by simp [hs, hb])]
  simp [consumeByte, hs, hb]

theorem rxSync2Match_eq_consume {s : State} {b : Byte} (h : s.callback ≠ none)
    (hs : s.state = .sync2) (hb : b = s.sync2Val) : exec (.rxSync2Match b) s = consume b s := by
  rw [consume_bound b h]
  simp only [exec, execRxSync2Match]
  rw [onlyWhen_true h (by simp [hs, hb])]
  simp [consumeByte, hs, hb]

theorem rxSync2MissResync_eq_consume {s : State} {b : Byte} (h : s.callback ≠ none)
    (hs : s.state = .sync2) (h2 : b ≠ s.sync2Val) (h1 : b = s.sync1Val) :
    exec (.rxSync2MissResync b) s = consume b s := by
  rw [consume_bound b h]
  simp only [exec, execRxSync2MissResync]
  rw [onlyWhen_true h (by simp [hs, h2, ← h1])]
  simp only [consumeByte, noteByte_state, hs]
  rw [if_neg (c := b = (noteByte b s).sync2Val) h2, if_pos (c := b = (noteByte b s).sync1Val) h1]

theorem rxSync2MissDrop_eq_consume {s : State} {b : Byte} (h : s.callback ≠ none)
    (hs : s.state = .sync2) (h2 : b ≠ s.sync2Val) (h1 : b ≠ s.sync1Val) :
    exec (.rxSync2MissDrop b) s = consume b s := by
  rw [consume_bound b h]
  simp only [exec, execRxSync2MissDrop]
  rw [onlyWhen_true h (by simp [hs, h2, h1])]
  simp only [consumeByte, noteByte_state, hs]
  rw [if_neg (c := b = (noteByte b s).sync2Val) h2, if_neg (c := b = (noteByte b s).sync1Val) h1]

theorem rxCmd_eq_consume {s : State} {b : Byte} (h : s.callback ≠ none) (hs : s.state = .cmd) :
    exec (.rxCmd b) s = consume b s := by
  rw [consume_bound b h]
  simp only [exec, execRxCmd]
  rw [onlyWhen_true h (by simp [hs])]
  simp [consumeByte, hs]

theorem rxId_eq_consume {s : State} {b : Byte} (h : s.callback ≠ none) (hs : s.state = .id) :
    exec (.rxId b) s = consume b s := by
  rw [consume_bound b h]
  simp only [exec, execRxId]
  rw [onlyWhen_true h (by simp [hs])]
  simp [consumeByte, hs]

theorem rxSizeZero_eq_consume {s : State} (h : s.callback ≠ none) (hs : s.state = .payloadSize) :
    exec .rxSizeZero s = consume 0#8 s := by
  rw [consume_bound 0#8 h]
  simp only [exec, execRxSizeZero]
  rw [onlyWhen_true h (by simp [hs])]
  simp [consumeByte, hs, isOversize, Config.maxPayloadSize]

theorem rxSizeOk_eq_consume {s : State} {n : Byte} (h : s.callback ≠ none)
    (hs : s.state = .payloadSize) (h1 : 1 ≤ n.toNat) (h64 : n.toNat ≤ 64) :
    exec (.rxSizeOk n) s = consume n s := by
  have hn : n ≠ 0#8 := by rintro rfl; simp at h1
  rw [consume_bound n h]
  simp only [exec, execRxSizeOk]
  rw [onlyWhen_true h (by simp [hs, h1, h64])]
  simp [consumeByte, hs, (isOversize_false_iff n).mpr h64, hn]

theorem rxSizeOver_eq_consume {s : State} {n : Byte} (h : s.callback ≠ none)
    (hs : s.state = .payloadSize) (h65 : 65 ≤ n.toNat) :
    exec (.rxSizeOver n) s = consume n s := by
  rw [consume_bound n h]
  simp only [exec, execRxSizeOver]
  rw [onlyWhen_true h (by simp [hs, h65])]
  simp [consumeByte, hs, (isOversize_iff n).mpr h65]

theorem rxPayloadMore_eq_consume {s : State} {d : Byte} (h : s.callback ≠ none)
    (hs : s.state = .payload) (hp : s.payloadPosition.toNat + 1 < s.bufPayloadSize.toNat) :
    exec (.rxPayloadMore d) s = consume d s := by
  rw [consume_bound d h]
  simp only [exec, execRxPayloadMore]
  rw [onlyWhen_true h (by simp [hs, hp])]
  have hc : (noteByte d s).state = .payload := hs
  simp only [consumeByte, hc]
  by_cases h64 : s.payloadPosition.toNat < 64
  · rw [storePayload_inside (s := noteByte d s) h64, andThen_of_next, if_neg]
    intro he
    have := congrArg BitVec.toNat he
    simp only [setPosition_payloadPosition, setPosition_bufPayloadSize, setPayload_bufPayloadSize,
      noteByte_payloadPosition, noteByte_bufPayloadSize] at this
    rw [nextPosition_toNat (by omega)] at this
    omega
  · rw [storePayload_outside (s := noteByte d s) (by simpa using Nat.not_lt.mp h64)]
    rfl

theorem rxPayloadLast_eq_consume {s : State} {d : Byte} (h : s.callback ≠ none)
    (hs : s.state = .payload) (hp : s.payloadPosition.toNat + 1 = s.bufPayloadSize.toNat) :
    exec (.rxPayloadLast d) s = consume d s := by
  rw [consume_bound d h]
  simp only [exec, execRxPayloadLast]
  rw [onlyWhen_true h (by simp [hs, hp])]
  have hc : (noteByte d s).state = .payload := hs
  simp only [consumeByte, hc]
  by_cases h64 : s.payloadPosition.toNat < 64
  · rw [storePayload_inside (s := noteByte d s) h64, andThen_of_next, andThen_of_next, if_pos]
    apply BitVec.eq_of_toNat_eq
    simp only [setPosition_payloadPosition, setPosition_bufPayloadSize, setPayload_bufPayloadSize,
      noteByte_payloadPosition, noteByte_bufPayloadSize]
    rw [nextPosition_toNat (by omega), hp]
  · rw [storePayload_outside (s := noteByte d s) (by simpa using Nat.not_lt.mp h64)]
    rfl

/-! ### What exec can do -/

/-- The four ways an instruction moves the block. -/
inductive Moves (i : Instr) (s t : State) : Prop where
  | init (h : Handler) (hi : i = .init (some h)) (ht : t = initialise h s)
  | silence (hi : i = .onSilence) (hs : s.callback ≠ none) (ht : t = goTo .sync1 s)
  | send (tx : TxCall) (hi : i = .transmitOk tx.command tx.payload tx.payloadSize tx.retries ∨
      i = .transmitReject tx.command tx.payload tx.payloadSize tx.retries)
      (hs : s.callback ≠ none) (ht : transmit tx s = .next t)
  | receive (bs : List Byte) (hi : ∀ h, i ≠ .init h) (hs : s.callback ≠ none)
      (ht : consumeAll bs s = .next t)

theorem consumeAll_one (b : Byte) (s : State) : consumeAll [b] s = consume b s := by
  rw [consumeAll_cons]
  cases consume b s <;> rfl

theorem Moves.byte {i : Instr} {s t : State} {b : Byte} (hi : ∀ h, i ≠ .init h)
    (h : consume b s = .next t) : Moves i s t :=
  .receive [b] hi (consume_next h).1 (by rwa [consumeAll_one])

/-- Every next state of `exec` comes from one of the four moves. -/
theorem exec_moves {i : Instr} {s t : State} (h : exec i s = .next t) : Moves i s t := by
  cases i with
  | init o =>
    cases o with
    | none => simp [exec, execInit] at h
    | some k => exact .init k rfl (by simpa [exec, execInit] using h.symm)
  | consume b => exact .byte (by simp) h
  | onSilence =>
    by_cases hs : s.callback = none
    · simp [exec, execOnSilence, whenInitialised_none hs] at h
    · refine .silence rfl hs ?_
      simpa [exec, execOnSilence, whenInitialised_bound hs] using h.symm
  | transmitOk c p n r =>
    obtain ⟨hs, -, h⟩ := onlyWhen_next h
    exact .send ⟨c, p, n, r⟩ (.inl rfl) hs h
  | transmitReject c p n r =>
    obtain ⟨hs, -, h⟩ := onlyWhen_next h
    exact .send ⟨c, p, n, r⟩ (.inr rfl) hs h
  | rxSync1Match b =>
    have hg := h
    simp only [exec, execRxSync1Match] at hg
    obtain ⟨h1, h2, -⟩ := onlyWhen_next hg
    simp at h2
    exact .byte (by simp) ((rxSync1Match_eq_consume h1 h2.1 h2.2).symm.trans h)
  | rxSync1Miss b =>
    have hg := h
    simp only [exec, execRxSync1Miss] at hg
    obtain ⟨h1, h2, -⟩ := onlyWhen_next hg
    simp at h2
    exact .byte (by simp) ((rxSync1Miss_eq_consume h1 h2.1 h2.2).symm.trans h)
  | rxSync2Match b =>
    have hg := h
    simp only [exec, execRxSync2Match] at hg
    obtain ⟨h1, h2, -⟩ := onlyWhen_next hg
    simp at h2
    exact .byte (by simp) ((rxSync2Match_eq_consume h1 h2.1 h2.2).symm.trans h)
  | rxSync2MissResync b =>
    have hg := h
    simp only [exec, execRxSync2MissResync] at hg
    obtain ⟨h1, h2, -⟩ := onlyWhen_next hg
    simp at h2
    exact .byte (by simp) ((rxSync2MissResync_eq_consume h1 h2.1.1 h2.1.2 h2.2).symm.trans h)
  | rxSync2MissDrop b =>
    have hg := h
    simp only [exec, execRxSync2MissDrop] at hg
    obtain ⟨h1, h2, -⟩ := onlyWhen_next hg
    simp at h2
    exact .byte (by simp) ((rxSync2MissDrop_eq_consume h1 h2.1.1 h2.1.2 h2.2).symm.trans h)
  | rxCmd b =>
    have hg := h
    simp only [exec, execRxCmd] at hg
    obtain ⟨h1, h2, -⟩ := onlyWhen_next hg
    simp at h2
    exact .byte (by simp) ((rxCmd_eq_consume h1 h2).symm.trans h)
  | rxId b =>
    have hg := h
    simp only [exec, execRxId] at hg
    obtain ⟨h1, h2, -⟩ := onlyWhen_next hg
    simp at h2
    exact .byte (by simp) ((rxId_eq_consume h1 h2).symm.trans h)
  | rxSizeZero =>
    have hg := h
    simp only [exec, execRxSizeZero] at hg
    obtain ⟨h1, h2, -⟩ := onlyWhen_next hg
    simp at h2
    exact .byte (by simp) ((rxSizeZero_eq_consume h1 h2).symm.trans h)
  | rxSizeOk n =>
    have hg := h
    simp only [exec, execRxSizeOk] at hg
    obtain ⟨h1, h2, -⟩ := onlyWhen_next hg
    simp at h2
    exact .byte (by simp) ((rxSizeOk_eq_consume h1 h2.1.1 h2.1.2 h2.2).symm.trans h)
  | rxSizeOver n =>
    have hg := h
    simp only [exec, execRxSizeOver] at hg
    obtain ⟨h1, h2, -⟩ := onlyWhen_next hg
    simp at h2
    exact .byte (by simp) ((rxSizeOver_eq_consume h1 h2.1 h2.2).symm.trans h)
  | rxPayloadMore d =>
    have hg := h
    simp only [exec, execRxPayloadMore] at hg
    obtain ⟨h1, h2, -⟩ := onlyWhen_next hg
    simp at h2
    exact .byte (by simp) ((rxPayloadMore_eq_consume h1 h2.1 h2.2).symm.trans h)
  | rxPayloadLast d =>
    have hg := h
    simp only [exec, execRxPayloadLast] at hg
    obtain ⟨h1, h2, -⟩ := onlyWhen_next hg
    simp at h2
    exact .byte (by simp) ((rxPayloadLast_eq_consume h1 h2.1 h2.2).symm.trans h)
  | frame sy1 sy2 c d n p =>
    have hc : ∃ u, consume sy1 s = .next u := by
      obtain ⟨u, hu, -⟩ := andThen_next_iff.mp h
      exact ⟨u, hu⟩
    exact .receive _ (by simp) (consume_next hc.choose_spec).1 h
  | vocM2lLedOn c => exact .byte (by simp) h
  | vocM2lLedOff c => exact .byte (by simp) h
  | vocM2lProfileSet c => exact .byte (by simp) h
  | vocM2lProfileNext c => exact .byte (by simp) h
  | vocM2lProfilePrev c => exact .byte (by simp) h
  | vocM2lIntensityNext c => exact .byte (by simp) h
  | vocM2lIntensitySet c => exact .byte (by simp) h
  | vocM2lAnimationSpeed c => exact .byte (by simp) h
  | vocM2lMaskKey c => exact .byte (by simp) h
  | vocM2lMaskRow c => exact .byte (by simp) h
  | vocM2lMaskMono c => exact .byte (by simp) h
  | vocM2lStatusQuery c => exact .byte (by simp) h
  | vocM2lKeyDown c => exact .byte (by simp) h
  | vocM2lKeyBlink c => exact .byte (by simp) h
  | vocM2lIap c => exact .byte (by simp) h
  | vocL2mDebug c => exact .byte (by simp) h
  | vocL2mStatus c => exact .byte (by simp) h

/-! ### What step can do -/

/-- Only the strobes of a byte and a TRANSMIT together can be two TRANSMITs at once. -/
theorem overlappingTransmits_of_lead {s : State} {lead : Byte} {rest : List Byte}
    (hr : s.requests = lead :: rest) (hl : lead ≠ 0x05#8) : overlappingTransmits s = false := by
  simp [overlappingTransmits, hr, hl]

/-- With those strobes it is so exactly when the byte completes a frame and the handler transmits. -/
theorem overlappingTransmits_of_byte {s : State} {b : Byte} {rest : List Byte}
    (hr : s.requests = 0x05#8 :: b :: rest) :
    overlappingTransmits s = (completesFrame b s && handlerTransmits s) := by
  simp [overlappingTransmits, hr]

/-- A step rests, passes over an idle byte, or runs the decoded instruction with its bytes taken. -/
theorem step_next {s t : State} (h : step s = .next t) :
    (∃ bs, t = setRequests bs s) ∨ ∃ i bs, exec i (setRequests bs s) = .next t := by
  unfold step fetch at h
  cases hr : s.requests with
  | nil =>
    left
    refine ⟨[], ?_⟩
    have : t = s := by simpa [hr] using h.symm
    rw [this, setRequests, ← hr]
  | cons lead rest =>
    by_cases hl : lead = 0#8
    · left
      exact ⟨rest, by simpa [hr, hl] using h.symm⟩
    by_cases ho : overlappingTransmits s = true
    · simp [hr, hl, ho] at h
    · cases hd : decode s.ctx (lead :: rest) with
      | error e => simp [hr, hl, ho, hd] at h
      | ok p =>
        right
        exact ⟨p.1, p.2, by simpa [hr, hl, ho, hd] using h⟩

/-- A step faults only where the decoded instruction does. -/
theorem step_fault {s : State} {e : Fault} (h : step s = .fault e) :
    ∃ i bs, exec i (setRequests bs s) = .fault e := by
  unfold step fetch at h
  cases hr : s.requests with
  | nil => simp [hr] at h
  | cons lead rest =>
    by_cases hl : lead = 0#8
    · simp [hr, hl] at h
    by_cases ho : overlappingTransmits s = true
    · simp [hr, hl, ho] at h
    · cases hd : decode s.ctx (lead :: rest) with
      | error e => simp [hr, hl, ho, hd] at h
      | ok p => exact ⟨p.1, p.2, by simpa [hr, hl, ho, hd] using h⟩

end Sys2Proof.Machine
end

