-- ==== Sys2Proof/Laws/PerInstr.lean ====
section
/-! SUPPORT. The per-instruction family `LeadByte`: how an instruction's bytes begin and how long
they are. -/

namespace Sys2Proof.Laws.LeadByte

/-- An instruction's request begins with a byte that is not the idle byte 0, and a well-formed
instruction's operands take at most 259 more. -/
def Statement (i : Instr) : Prop :=
  ∃ lead rest, encode i = lead :: rest ∧ lead ≠ 0#8 ∧
    ∀ c, Instr.wellFormed c i = true → rest.length ≤ 259

theorem init (h : Option Handler) : Statement (.init h) := by
  cases h with
  | none => exact ⟨_, _, rfl, by decide, fun _ _ => by simp⟩
  | some k => exact ⟨_, _, rfl, by decide, fun _ _ => by simp⟩

theorem consume (b : Byte) : Statement (.consume b) :=
  ⟨_, _, rfl, by decide, fun _ _ => by simp⟩

theorem onSilence : Statement .onSilence :=
  ⟨_, _, rfl, by decide, fun _ _ => by simp⟩

theorem transmitOk (c : Byte) (p : List Byte) (n r : Byte) : Statement (.transmitOk c p n r) := by
  refine ⟨_, _, rfl, by decide, fun _ h => ?_⟩
  simp [Instr.wellFormed] at h
  simp
  omega

theorem transmitReject (c : Byte) (p : List Byte) (n r : Byte) :
    Statement (.transmitReject c p n r) := by
  refine ⟨_, _, rfl, by decide, fun _ h => ?_⟩
  simp [Instr.wellFormed] at h
  simp
  omega

theorem rxSync1Match (b : Byte) : Statement (.rxSync1Match b) :=
  ⟨_, _, rfl, by decide, fun _ _ => by simp⟩

theorem rxSync1Miss (b : Byte) : Statement (.rxSync1Miss b) :=
  ⟨_, _, rfl, by decide, fun _ _ => by simp⟩

theorem rxSync2Match (b : Byte) : Statement (.rxSync2Match b) :=
  ⟨_, _, rfl, by decide, fun _ _ => by simp⟩

theorem rxSync2MissResync (b : Byte) : Statement (.rxSync2MissResync b) :=
  ⟨_, _, rfl, by decide, fun _ _ => by simp⟩

theorem rxSync2MissDrop (b : Byte) : Statement (.rxSync2MissDrop b) :=
  ⟨_, _, rfl, by decide, fun _ _ => by simp⟩

theorem rxCmd (b : Byte) : Statement (.rxCmd b) :=
  ⟨_, _, rfl, by decide, fun _ _ => by simp⟩

theorem rxId (b : Byte) : Statement (.rxId b) :=
  ⟨_, _, rfl, by decide, fun _ _ => by simp⟩

theorem rxSizeZero : Statement .rxSizeZero :=
  ⟨_, _, rfl, by decide, fun _ _ => by simp⟩

theorem rxSizeOk (b : Byte) : Statement (.rxSizeOk b) :=
  ⟨_, _, rfl, by decide, fun _ _ => by simp⟩

theorem rxSizeOver (b : Byte) : Statement (.rxSizeOver b) :=
  ⟨_, _, rfl, by decide, fun _ _ => by simp⟩

theorem rxPayloadMore (b : Byte) : Statement (.rxPayloadMore b) :=
  ⟨_, _, rfl, by decide, fun _ _ => by simp⟩

theorem rxPayloadLast (b : Byte) : Statement (.rxPayloadLast b) :=
  ⟨_, _, rfl, by decide, fun _ _ => by simp⟩

theorem frame (sy1 sy2 c d n : Byte) (p : List Byte) : Statement (.frame sy1 sy2 c d n p) := by
  refine ⟨_, _, rfl, by decide, fun _ h => ?_⟩
  simp [Instr.wellFormed] at h
  simp
  omega

theorem vocM2lLedOn (b : Byte) : Statement (.vocM2lLedOn b) :=
  ⟨_, _, rfl, by decide, fun _ _ => by simp⟩

theorem vocM2lLedOff (b : Byte) : Statement (.vocM2lLedOff b) :=
  ⟨_, _, rfl, by decide, fun _ _ => by simp⟩

theorem vocM2lProfileSet (b : Byte) : Statement (.vocM2lProfileSet b) :=
  ⟨_, _, rfl, by decide, fun _ _ => by simp⟩

theorem vocM2lProfileNext (b : Byte) : Statement (.vocM2lProfileNext b) :=
  ⟨_, _, rfl, by decide, fun _ _ => by simp⟩

theorem vocM2lProfilePrev (b : Byte) : Statement (.vocM2lProfilePrev b) :=
  ⟨_, _, rfl, by decide, fun _ _ => by simp⟩

theorem vocM2lIntensityNext (b : Byte) : Statement (.vocM2lIntensityNext b) :=
  ⟨_, _, rfl, by decide, fun _ _ => by simp⟩

theorem vocM2lIntensitySet (b : Byte) : Statement (.vocM2lIntensitySet b) :=
  ⟨_, _, rfl, by decide, fun _ _ => by simp⟩

theorem vocM2lAnimationSpeed (b : Byte) : Statement (.vocM2lAnimationSpeed b) :=
  ⟨_, _, rfl, by decide, fun _ _ => by simp⟩

theorem vocM2lMaskKey (b : Byte) : Statement (.vocM2lMaskKey b) :=
  ⟨_, _, rfl, by decide, fun _ _ => by simp⟩

theorem vocM2lMaskRow (b : Byte) : Statement (.vocM2lMaskRow b) :=
  ⟨_, _, rfl, by decide, fun _ _ => by simp⟩

theorem vocM2lMaskMono (b : Byte) : Statement (.vocM2lMaskMono b) :=
  ⟨_, _, rfl, by decide, fun _ _ => by simp⟩

theorem vocM2lStatusQuery (b : Byte) : Statement (.vocM2lStatusQuery b) :=
  ⟨_, _, rfl, by decide, fun _ _ => by simp⟩

theorem vocM2lKeyDown (b : Byte) : Statement (.vocM2lKeyDown b) :=
  ⟨_, _, rfl, by decide, fun _ _ => by simp⟩

theorem vocM2lKeyBlink (b : Byte) : Statement (.vocM2lKeyBlink b) :=
  ⟨_, _, rfl, by decide, fun _ _ => by simp⟩

theorem vocM2lIap (b : Byte) : Statement (.vocM2lIap b) :=
  ⟨_, _, rfl, by decide, fun _ _ => by simp⟩

theorem vocL2mDebug (b : Byte) : Statement (.vocL2mDebug b) :=
  ⟨_, _, rfl, by decide, fun _ _ => by simp⟩

theorem vocL2mStatus (b : Byte) : Statement (.vocL2mStatus b) :=
  ⟨_, _, rfl, by decide, fun _ _ => by simp⟩

end Sys2Proof.Laws.LeadByte
end

