-- ==== Sys2Proof/Machine/Ports.lean ====
section
/-! DEFINITION. The outputs of the informative port rendering (30_encoding.md R97, 10_state.md R22)
as a function of the state before and after a step; the inputs are the requests (Decode.lean). -/

namespace Sys2Proof.Machine

/-- The 3-bit code of the sequencer in a rendering (R22, D7). -/
def stateCode : DecState → BitVec 3
  | .sync1 => 0#3
  | .sync2 => 1#3
  | .cmd => 2#3
  | .id => 3#3
  | .payloadSize => 4#3
  | .payload => 5#3

/-- `tx_result`: 0 for TX_OK, 1 for TX_ERR_OVERSIZE (R97, D15). -/
def resultCode : TxResult → BitVec 1
  | .ok => 0#1
  | .errOversize => 1#1

/-- The output ports of one step: one entry of a list per strobe. -/
structure Ports where
  messages : List Message
  errors : Byte
  previousId : Byte
  txResults : List (BitVec 1)
  writes : List (BitVec 7 × List Byte)
deriving DecidableEq, Repr

/-- The outputs of the step from `s` to `t`: `msg_valid` with its message, the two status values, the
results, and one `wr_valid` with `wr_len` per attempt. -/
def ports (s t : State) : Ports :=
  { messages := (t.delivered.drop s.delivered.length).map Delivery.message
    errors := t.errors
    previousId := t.previousId
    txResults := (t.results.drop s.results.length).map resultCode
    writes := (t.writes.drop s.writes.length).map fun w => (BitVec.ofNat 7 w.length, w) }

end Sys2Proof.Machine
end

