-- ==== Sys2Proof/Tests/Slice0.lean ====
section
/-! SUPPORT. The model's own tests. Expected results come from spec/95_test_vectors.md (V-..., P...)
or, for encodings, from the table and log entry 11. REF-A and REF-B are that file's section 0. -/

namespace Sys2Proof.Tests

open Sys2Proof Sys2Proof.Machine

/-! ## Helpers -/

/-- REF-A after INIT. -/
def refA : State := State.resetWith 0xAA#8 0x0D#8

/-- REF-B after INIT. -/
def refB : State := State.resetWith 0x55#8 0x55#8

/-- REF-A with the registers of a vector's tuple. -/
def at4 (st : DecState) (pos prev errs : Byte) : State :=
  { refA with state := st, payloadPosition := pos, previousId := prev, errors := errs }

/-- A value read from the next state, if there is one. -/
def readAfter {α : Type} (r : Result) (f : State → α) : Option α :=
  match r with
  | .next s => some (f s)
  | .fault _ => none
  | .refused _ => none

/-- The refusal, if there is one. -/
def refusal (r : Result) : Option Refusal :=
  match r with
  | .refused e => some e
  | .next _ => none
  | .fault _ => none

/-- The fault, if there is one. -/
def faultOf (r : Result) : Option Fault :=
  match r with
  | .fault e => some e
  | .next _ => none
  | .refused _ => none

/-- A vector's register tuple. -/
def regs (s : State) : DecState × Byte × Byte × Byte :=
  (s.state, s.payloadPosition, s.previousId, s.errors)

/-- The messages delivered. -/
def msgs (s : State) : List Message := s.delivered.map Delivery.message

/-- A context of REF-A. -/
def ctxA (st : DecState) (pos size : Byte) : Ctx := ⟨0xAA#8, 0x0D#8, st, pos, size⟩

/-! ## WellFormed: an ill-formed term for each check -/

theorem test_wf_operands :
    Instr.wellFormed (ctxA .sync1 0 0) (.init none) = false ∧
    Instr.wellFormed (ctxA .sync1 0 0) (.transmitOk 1 [] 1 0) = false ∧
    Instr.wellFormed (ctxA .sync1 0 0) (.transmitReject 1 [] 64 0) = false ∧
    Instr.wellFormed (ctxA .sync1 0 0) (.frame 0xAB 0x0D 1 2 0 []) = false ∧
    Instr.wellFormed (ctxA .sync1 0 0) (.frame 0xAA 0x0E 1 2 0 []) = false ∧
    Instr.wellFormed (ctxA .sync1 0 0) (.frame 0xAA 0x0D 1 2 2 [0]) = false := by decide

/-- The length checks, each with every other check of its row met. -/
theorem test_wf_lengths (p q : List Byte) (hp : p.length = 65) (hq : q.length = 256) :
    Instr.wellFormed (ctxA .sync1 0 0) (.transmitOk 1 p 65 0) = false ∧
    Instr.wellFormed (ctxA .sync1 0 0) (.transmitOk 1 q 1 0) = false ∧
    Instr.wellFormed (ctxA .sync1 0 0) (.transmitReject 1 q 65 0) = false ∧
    Instr.wellFormed (ctxA .sync1 0 0) (.frame 0xAA 0x0D 1 2 65 p) = false := by
  simp [Instr.wellFormed, ctxA, hp, hq]

theorem test_wf_transitions :
    Instr.wellFormed (ctxA .sync2 0 0) (.rxSync1Match 0xAA) = false ∧
    Instr.wellFormed (ctxA .sync1 0 0) (.rxSync1Match 0xAB) = false ∧
    Instr.wellFormed (ctxA .sync1 0 0) (.rxSync1Miss 0xAA) = false ∧
    Instr.wellFormed (ctxA .sync2 0 0) (.rxSync2Match 0xAA) = false ∧
    Instr.wellFormed (ctxA .sync2 0 0) (.rxSync2MissResync 0x0D) = false ∧
    Instr.wellFormed (ctxA .sync2 0 0) (.rxSync2MissResync 0x55) = false ∧
    Instr.wellFormed (ctxA .sync2 0 0) (.rxSync2MissDrop 0x0D) = false ∧
    Instr.wellFormed (ctxA .sync2 0 0) (.rxSync2MissDrop 0xAA) = false ∧
    Instr.wellFormed (ctxA .id 0 0) (.rxCmd 1) = false ∧
    Instr.wellFormed (ctxA .cmd 0 0) (.rxId 1) = false ∧
    Instr.wellFormed (ctxA .id 0 0) .rxSizeZero = false ∧
    Instr.wellFormed (ctxA .payloadSize 0 0) (.rxSizeOk 0) = false ∧
    Instr.wellFormed (ctxA .payloadSize 0 0) (.rxSizeOk 65) = false ∧
    Instr.wellFormed (ctxA .payloadSize 0 0) (.rxSizeOver 64) = false ∧
    Instr.wellFormed (ctxA .payload 2 3) (.rxPayloadMore 0) = false ∧
    Instr.wellFormed (ctxA .payload 1 3) (.rxPayloadLast 0) = false := by decide

/-! ## Decoding, on bytes written out from the table -/

theorem test_decode_operations (c : Ctx) :
    decode c [0x08, 0x00, 0x07, 0xEE] = .ok (.init (some ⟨7⟩), [0xEE]) ∧
    decode c [0x08, 0x01, 0xEE] = .ok (.init none, [0xEE]) ∧
    decode c [0x04, 0xAA, 0xEE] = .ok (.consume 0xAA, [0xEE]) ∧
    decode c [0x02, 0xEE] = .ok (.onSilence, [0xEE]) ∧
    decode c [0x01, 0x10, 0x02, 0x05, 0x03, 0xA1, 0xA2, 0xA3, 0xEE] =
      .ok (.transmitOk 0x10 [0xA1, 0xA2, 0xA3] 0x02 0x05, [0xEE]) ∧
    decode c [0x01, 0x10, 0x41, 0x05, 0x01, 0xA1, 0xEE] =
      .ok (.transmitReject 0x10 [0xA1] 0x41 0x05, [0xEE]) := by
  refine ⟨rfl, rfl, rfl, rfl, rfl, rfl⟩

theorem test_decode_transitions :
    decode (ctxA .sync1 0 0) [0x10, 0xAA] = .ok (.rxSync1Match 0xAA, []) ∧
    decode (ctxA .sync1 0 0) [0x10, 0x0D] = .ok (.rxSync1Miss 0x0D, []) ∧
    decode (ctxA .sync2 0 0) [0x10, 0x0D] = .ok (.rxSync2Match 0x0D, []) ∧
    decode (ctxA .sync2 0 0) [0x10, 0xAA] = .ok (.rxSync2MissResync 0xAA, []) ∧
    decode (ctxA .sync2 0 0) [0x10, 0x55] = .ok (.rxSync2MissDrop 0x55, []) ∧
    decode (ctxA .cmd 0 0) [0x10, 0xAA] = .ok (.rxCmd 0xAA, []) ∧
    decode (ctxA .id 0 0) [0x10, 0x0D] = .ok (.rxId 0x0D, []) ∧
    decode (ctxA .payloadSize 0 0) [0x10, 0x00] = .ok (.rxSizeZero, []) ∧
    decode (ctxA .payloadSize 0 0) [0x10, 0x40] = .ok (.rxSizeOk 0x40, []) ∧
    decode (ctxA .payloadSize 0 0) [0x10, 0x41] = .ok (.rxSizeOver 0x41, []) ∧
    decode (ctxA .payload 1 3) [0x10, 0xAA] = .ok (.rxPayloadMore 0xAA, []) ∧
    decode (ctxA .payload 2 3) [0x10, 0xAA] = .ok (.rxPayloadLast 0xAA, []) := by
  refine ⟨rfl, rfl, rfl, rfl, rfl, rfl, rfl, rfl, rfl, rfl, rfl, rfl⟩

theorem test_decode_frame (c : Ctx) :
    decode c [0x40, 0xAA, 0x0D, 0x10, 0x07, 0x02, 0xBE, 0xEF, 0xEE] =
      .ok (.frame 0xAA 0x0D 0x10 0x07 0x02 [0xBE, 0xEF], [0xEE]) ∧
    decode c [0x40, 0xAA, 0x0D, 0x10, 0x07, 0xFF, 0xEE] =
      .ok (.frame 0xAA 0x0D 0x10 0x07 0xFF [], [0xEE]) := by
  refine ⟨rfl, rfl⟩

theorem test_decode_vocabulary (c : Ctx) :
    decode c [0x20, 0x99] = .ok (.vocM2lLedOn 0x99, []) ∧
    decode c [0x21, 0x99] = .ok (.vocM2lLedOff 0x99, []) ∧
    decode c [0x22, 0x99] = .ok (.vocM2lProfileSet 0x99, []) ∧
    decode c [0x23, 0x99] = .ok (.vocM2lProfileNext 0x99, []) ∧
    decode c [0x24, 0x99] = .ok (.vocM2lProfilePrev 0x99, []) ∧
    decode c [0x25, 0x99] = .ok (.vocM2lIntensityNext 0x99, []) ∧
    decode c [0x26, 0x99] = .ok (.vocM2lIntensitySet 0x99, []) ∧
    decode c [0x27, 0x99] = .ok (.vocM2lAnimationSpeed 0x99, []) ∧
    decode c [0x28, 0x99] = .ok (.vocM2lMaskKey 0x99, []) ∧
    decode c [0x29, 0x99] = .ok (.vocM2lMaskRow 0x99, []) ∧
    decode c [0x2A, 0x99] = .ok (.vocM2lMaskMono 0x99, []) ∧
    decode c [0x2B, 0x99] = .ok (.vocM2lStatusQuery 0x99, []) ∧
    decode c [0x2C, 0x99] = .ok (.vocM2lKeyDown 0x99, []) ∧
    decode c [0x2D, 0x99] = .ok (.vocM2lKeyBlink 0x99, []) ∧
    decode c [0x2E, 0x99] = .ok (.vocM2lIap 0x99, []) ∧
    decode c [0x2F, 0x99] = .ok (.vocL2mDebug 0x99, []) ∧
    decode c [0x30, 0x99] = .ok (.vocL2mStatus 0x99, []) := by
  refine ⟨rfl, rfl, rfl, rfl, rfl, rfl, rfl, rfl, rfl, rfl, rfl, rfl, rfl, rfl, rfl, rfl, rfl⟩

theorem test_decode_rejects (c : Ctx) :
    decode c [] = .error .truncated ∧
    decode c [0x01, 0x10, 0x02, 0x00, 0x02, 0xA1] = .error .truncated ∧
    decode c [0x06] = .error .overlap ∧
    decode c [0x08, 0x02] = .error (.reservedHandlerFlag 0x02) ∧
    decode c [0x11] = .error (.reservedLead 0x11) ∧
    decode c [0x31] = .error (.reservedLead 0x31) ∧
    decode (ctxA .payload 9 3) [0x10, 0x00] = .error .noTransition := by
  refine ⟨rfl, rfl, rfl, rfl, rfl, rfl, rfl⟩

theorem test_table_words :
    decodeTableWord 8 8 = some (.init (some ⟨0⟩)) ∧ decodeTableWord 8 0 = some .rxSizeZero ∧
    decodeTableWord 40 0x0000000000 = some (.frame 0 0 0 0 0 []) ∧
    readAfter (step (State.reset.withFetchWord 8 0)) msgs = some [⟨0, 0, 0, []⟩] ∧
    readAfter (step (State.reset.withFetchWord 8 8)) State.callback = some (some ⟨0⟩) ∧
    readAfter (step (State.reset.withFetchWord 8 1)) State.txId = some 1#8 := by decide

/-! ## INIT (V-I1 to V-I4) -/

/-- V-I2. -/
theorem test_init_midframe :
    readAfter (exec (.init (some ⟨1⟩))
        { at4 .payload 2 0x07 9 with bufCommand := 0x10, txId := 0x2C, callback := some ⟨0⟩ })
      (fun t => (regs t, t.callback, t.txId, t.bufCommand, t.delivered, t.writes)) =
    some ((.sync1, 0, 0, 0), some ⟨1⟩, 0, 0x10, [], []) := rfl

/-- V-I3, V-I4. -/
theorem test_before_init :
    refusal (exec (.consume 0xAA) { refA with callback := none }) = some .beforeInit ∧
    refusal (exec .onSilence { refA with callback := none }) = some .beforeInit ∧
    refusal (exec (.transmitOk 1 [] 0 0) { refA with callback := none }) = some .beforeInit ∧
    refusal (exec (.init none) refA) = some .initWithoutHandler := by decide

/-! ## CONSUME, one step per transition (V-D1 to V-D16) -/

/-- V-D1, V-D2a, V-D3, V-D4, V-D5a, V-D16. -/
theorem test_sync_states :
    readAfter (exec (.consume 0xAA) (at4 .sync1 0 0 0)) regs = some (.sync2, 0, 0, 0) ∧
    readAfter (exec (.consume 0x0D) (at4 .sync1 3 7 3)) regs = some (.sync1, 3, 7, 3) ∧
    readAfter (exec (.consume 0x0D) (at4 .sync2 0 0 0)) regs = some (.cmd, 0, 0, 0) ∧
    readAfter (exec (.consume 0xAA) (at4 .sync2 0 0 0)) regs = some (.sync2, 0, 0, 1) ∧
    readAfter (exec (.consume 0x55) (at4 .sync2 0 0 0)) regs = some (.sync1, 0, 0, 1) ∧
    readAfter (exec (.consume 0x00) (at4 .sync2 0 0 255)) regs = some (.sync1, 0, 0, 255) ∧
    readAfter (exec (.consume 0xAA) (at4 .sync2 0 0 254)) regs = some (.sync2, 0, 0, 255) :=
  ⟨rfl, rfl, rfl, rfl, rfl, rfl, rfl⟩

/-- The same vectors through the transitions' own rows. -/
theorem test_sync_rows :
    readAfter (exec (.rxSync1Match 0xAA) (at4 .sync1 0 0 0)) regs = some (.sync2, 0, 0, 0) ∧
    readAfter (exec (.rxSync1Miss 0xFF) (at4 .sync1 3 7 3)) regs = some (.sync1, 3, 7, 3) ∧
    readAfter (exec (.rxSync2Match 0x0D) (at4 .sync2 0 0 0)) regs = some (.cmd, 0, 0, 0) ∧
    readAfter (exec (.rxSync2MissResync 0xAA) (at4 .sync2 0 0 254)) regs =
      some (.sync2, 0, 0, 255) ∧
    readAfter (exec (.rxSync2MissDrop 0x00) (at4 .sync2 0 0 255)) regs =
      some (.sync1, 0, 0, 255) ∧
    refusal (exec (.rxCmd 0x10) (at4 .sync2 0 0 0)) = some (.whenNotMet "RX.CMD") := by decide

/-- V-D6, V-D7. -/
theorem test_header_bytes :
    readAfter (exec (.rxCmd 0xAA) (at4 .cmd 0 0 0)) (fun t => (regs t, t.bufCommand)) =
      some ((.id, 0, 0, 0), 0xAA) ∧
    readAfter (exec (.rxId 0x0D) (at4 .id 0 5 0)) (fun t => (regs t, t.bufId)) =
      some ((.payloadSize, 0, 5, 0), 0x0D) := by decide

/-- V-D8. -/
theorem test_size_zero :
    readAfter (exec .rxSizeZero
        { at4 .payloadSize 17 3 2 with bufCommand := 0x20, bufId := 0x09 })
      (fun t => (regs t, t.bufPayloadSize, msgs t)) =
    some ((.sync1, 0, 9, 2), 0, [⟨0x20, 0x09, 0, []⟩]) := by decide

/-- V-D9, V-D10, V-D11a to c, V-D16b. -/
theorem test_size_bounds :
    readAfter (exec (.rxSizeOk 0x40) (at4 .payloadSize 5 3 2)) regs = some (.payload, 0, 3, 2) ∧
    readAfter (exec (.rxSizeOk 0x01) (at4 .payloadSize 5 3 2)) regs = some (.payload, 0, 3, 2) ∧
    readAfter (exec (.rxSizeOver 0x41) (at4 .payloadSize 5 3 2))
      (fun t => (regs t, t.bufPayloadSize, t.delivered)) =
      some ((.sync1, 5, 3, 3), 0x41, []) ∧
    readAfter (exec (.consume 0x80) (at4 .payloadSize 5 3 2)) regs = some (.sync1, 5, 3, 3) ∧
    readAfter (exec (.consume 0xFF) (at4 .payloadSize 0 0 255)) regs =
      some (.sync1, 0, 0, 255) := ⟨rfl, rfl, rfl, rfl, rfl⟩

/-- V-D13, V-D14. -/
theorem test_payload_bytes :
    readAfter (exec (.rxPayloadMore 0x11) { at4 .payload 0 3 0 with bufPayloadSize := 3 })
      (fun t => (regs t, t.payload)) = some ((.payload, 1, 3, 0), [(0, 0x11)]) ∧
    readAfter (exec (.rxPayloadLast 0xAA)
        { at4 .payload 0 3 0 with bufCommand := 0x10, bufId := 0x07, bufPayloadSize := 1 })
      (fun t => (regs t, msgs t)) = some ((.sync1, 1, 7, 0), [⟨0x10, 7, 1, [0xAA]⟩]) := by
  decide

/-- V-D15: the last index. -/
theorem test_last_index :
    readAfter (exec (.consume 0x3F)
        { at4 .payload 63 3 0 with bufCommand := 0x40, bufId := 0xFF, bufPayloadSize := 64 })
      (fun t => (regs t, t.payload)) =
    some ((.sync1, 64, 0xFF, 0), [(63, 0x3F)]) := by decide

/-- 20_memory.md R52: outside the buffer, which no run reaches. -/
theorem test_store_outside :
    faultOf (exec (.rxPayloadMore 1) { at4 .payload 64 0 0 with bufPayloadSize := 70 }) =
      some (.payloadIndexOutOfRange 64) := by decide

/-! ## ON_SILENCE (V-S1, V-S6, V-S9) -/

theorem test_silence :
    readAfter (exec .onSilence (at4 .sync1 0 0 255)) regs = some (.sync1, 0, 0, 255) ∧
    readAfter (exec .onSilence { at4 .payload 1 7 2 with bufCommand := 1, payload := [(0, 9)] })
      (fun t => (regs t, t.bufCommand, t.payload)) =
      some ((.sync1, 1, 7, 2), 1, [(0, 9)]) := by decide

/-! ## TRANSMIT (V-E2 to V-E4, V-E7, V-E9) -/

theorem test_transmit_ok :
    readAfter (exec (.transmitOk 0x10 [1, 2, 3, 9, 9] 3 2) { refA with txId := 1 })
      (fun t => (t.txId, t.writes, t.results)) =
    some (2, [[0xAA, 0x0D, 0x10, 1, 3, 1, 2, 3], [0xAA, 0x0D, 0x10, 1, 3, 1, 2, 3],
      [0xAA, 0x0D, 0x10, 1, 3, 1, 2, 3]], [.ok]) ∧
    readAfter (exec (.transmitOk 0x02 [] 0 0) { refA with txId := 0xFF })
      (fun t => (t.txId, t.writes)) = some (0, [[0xAA, 0x0D, 0x02, 0xFF, 0]]) := by decide

theorem test_transmit_edges :
    readAfter (exec (.transmitReject 0 [] 255 0) refA)
      (fun t => (t.txId, t.writes, t.results)) = some (0, [], [.errOversize]) ∧
    refusal (exec (.transmitOk 0x10 [1] 64 0) { refA with txId := 5 }) = some .shortPayload ∧
    readAfter (exec (.transmitOk 0x55 [0x55] 1 1) refB) State.writes =
      some [[0x55, 0x55, 0x55, 0, 1, 0x55], [0x55, 0x55, 0x55, 0, 1, 0x55]] := by decide

/-! ## FRAME (P1, P2) and the callback (P10) -/

/-- P1 in one step; and the frame of P8b's second half over stale bytes. -/
theorem test_frame :
    readAfter (exec (.frame 0xAA 0x0D 0x10 0x07 3 [0x11, 0x22, 0x33]) refA)
      (fun t => (regs t, msgs t, t.payload)) =
      some ((.sync1, 3, 7, 0), [⟨0x10, 7, 3, [0x11, 0x22, 0x33]⟩],
        [(0, 0x11), (1, 0x22), (2, 0x33)]) ∧
    readAfter (exec (.frame 0xAA 0x0D 0x41 0xFF 1 [9]) { refA with payload := [(0, 1), (1, 2)] })
      (fun t => (msgs t, t.payload)) =
      some ([⟨0x41, 0xFF, 1, [9]⟩], [(0, 9), (1, 2)]) := ⟨rfl, rfl⟩

/-- P10 step 2 and 3: the handler sees the id already recorded and the state not yet left, and its
TRANSMIT is written during the CONSUME. -/
theorem test_callback_transmits :
    readAfter (exec (.consume 0)
        { at4 .payloadSize 0 0 1 with
          bufCommand := 0x21, bufId := 0x05,
          reactions := [[.transmit ⟨0x22, [3, 1, 1, 0, 0x80, 1], 6, 0⟩]] })
      (fun t => (regs t, t.txId, t.writes,
        t.delivered.map fun d => (d.seenState, d.seenPreviousId, d.seenErrors))) =
    some ((.sync1, 0, 5, 1), 1, [[0xAA, 0x0D, 0x22, 0, 6, 3, 1, 1, 0, 0x80, 1]],
      [(.payloadSize, 5, 1)]) ∧
    refusal (exec (.consume 0) { at4 .payloadSize 0 0 1 with reactions := [[.onSilence]] }) =
      some .reentrantCall := ⟨rfl, rfl⟩

/-! ## Vocabulary, step, ports, watchdog -/

theorem test_vocabulary_byte :
    readAfter (exec (.vocM2lStatusQuery 0x21) (at4 .cmd 0 0 0)) (fun t => (t.state, t.bufCommand)) =
      some (.id, 0x21) ∧
    Vocabulary.direction .status = .ledToMain ∧ Vocabulary.direction .iap = .mainToLed := by decide

theorem test_step_takes_one_request :
    readAfter (step { refA with requests := [0x10, 0xAA, 0x02] })
      (fun t => (t.state, t.requests)) = some (.sync2, [0x02]) ∧
    readAfter (step { refA with requests := [0x00, 0x02] }) State.requests = some [0x02] ∧
    refusal (step { refA with requests := [0x06, 0xAA] }) = some .overlap := by decide

/-- R174: a byte that completes a frame, accompanied by a TRANSMIT, while the handler transmits; and the
same pair where the handler only takes the message. -/
theorem test_overlapping_transmits :
    refusal (step { at4 .payloadSize 0 0 0 with
      requests := [0x05, 0, 1, 0, 0, 0], reactions := [[.transmit ⟨1, [], 0, 0⟩]] }) = some .overlap ∧
    readAfter (step { at4 .payloadSize 0 0 0 with requests := [0x05, 0, 1, 0, 0, 0] })
      State.requests = some [0x01, 1, 0, 0, 0] := by decide

/-- R184: the six names in the source's order, the sixth the `errors` of the reporting end. -/
theorem test_status_report :
    statusReport ⟨4, 1, 1, 0, 7⟩ (at4 .sync1 0 0 9) =
      [(.profileCount, 4), (.currentProfile, 1), (.onOffFlag, 1), (.reactiveFlag, 0),
        (.brightness, 7), (.errorCount, 9)] := by decide

/-- The output ports of V-D8's step and of V-E1's (R97). -/
theorem test_ports :
    readAfter (exec .rxSizeZero { at4 .payloadSize 17 3 2 with bufCommand := 0x20, bufId := 9 })
      (fun t => (ports (at4 .payloadSize 17 3 2) t).messages) = some [⟨0x20, 9, 0, []⟩] ∧
    readAfter (exec (.transmitOk 1 [] 0 0) refA)
      (fun t => ((ports refA t).txResults, (ports refA t).writes)) =
      some ([0#1], [(5#7, [0xAA, 0x0D, 1, 0, 0])]) ∧
    stateCode .payload = 5#3 := by decide

/-- R223: three ticks at threshold two fire once. -/
theorem test_watchdog :
    watchdogRequests 2 0 [.byte 7, .tick, .tick, .tick, .byte 8, .tick] =
      [0x04, 7, 0x02, 0x04, 8] := by decide

/-! ## Witnesses: for each statement with hypotheses, a state and operands that meet them all -/

theorem witness_before_init :
    ({ refA with callback := none } : State).callback = none ∧
      ∀ h, Instr.rxCmd 1 ≠ .init h := ⟨rfl, by simp⟩

theorem witness_sync1 :
    refA.callback ≠ none ∧ refA.state = .sync1 ∧ 0xAA#8 = refA.sync1Val ∧
      0x0D#8 ≠ refA.sync1Val := by decide

theorem witness_sync2 :
    (at4 .sync2 0 0 255).callback ≠ none ∧ (at4 .sync2 0 0 255).state = .sync2 ∧
      0x0D#8 = (at4 .sync2 0 0 255).sync2Val ∧
      (0xAA#8 ≠ (at4 .sync2 0 0 255).sync2Val ∧ 0xAA#8 = (at4 .sync2 0 0 255).sync1Val) ∧
      (0x55#8 ≠ (at4 .sync2 0 0 255).sync2Val ∧ 0x55#8 ≠ (at4 .sync2 0 0 255).sync1Val) := by decide

theorem witness_header :
    (at4 .cmd 0 0 0).callback ≠ none ∧ (at4 .cmd 0 0 0).state = .cmd ∧
      (at4 .id 0 0 0).callback ≠ none ∧ (at4 .id 0 0 0).state = .id := by decide

/-- Both ends of the legal sizes, the smallest illegal size, and the empty frame. -/
theorem witness_size :
    (at4 .payloadSize 0 0 0).callback = some ⟨0⟩ ∧ (at4 .payloadSize 0 0 0).state = .payloadSize ∧
      nextCalls (at4 .payloadSize 0 0 0) = [] ∧
      (1 ≤ (1#8).toNat ∧ (1#8).toNat ≤ 64) ∧ (1 ≤ (64#8).toNat ∧ (64#8).toNat ≤ 64) ∧
      65 ≤ (65#8).toNat := by decide

theorem witness_payload_more :
    let s : State := { at4 .payload 62 0 0 with bufPayloadSize := 64 }
    s.callback ≠ none ∧ s.state = .payload ∧
      s.payloadPosition.toNat + 1 < s.bufPayloadSize.toNat ∧ s.payloadPosition.toNat < 64 := by
  decide

theorem witness_payload_last :
    let s : State := { at4 .payload 63 0 0 with bufPayloadSize := 64 }
    s.callback = some ⟨0⟩ ∧ s.state = .payload ∧
      s.payloadPosition.toNat + 1 = s.bufPayloadSize.toNat ∧ s.payloadPosition.toNat < 64 ∧
      nextCalls s = [] := by decide

theorem witness_payload_store :
    let s : State := { at4 .payload 1 0 0 with bufPayloadSize := 2, payload := [(0, 5)] }
    Memory.wf s.payload = true ∧
      readAfter (exec (.rxPayloadLast 0) s) State.payload = some [(0, 5)] ∧
      readAfter (exec (.rxPayloadMore 7) { s with bufPayloadSize := 3 }) State.payload =
        some [(0, 5), (1, 7)] := by decide

theorem witness_store_outside :
    let s : State := { at4 .payload 64 0 0 with bufPayloadSize := 66 }
    let u : State := { at4 .payload 64 0 0 with bufPayloadSize := 65 }
    s.callback ≠ none ∧ s.state = .payload ∧ 64 ≤ s.payloadPosition.toNat ∧
      s.payloadPosition.toNat + 1 < s.bufPayloadSize.toNat ∧
      u.callback ≠ none ∧ u.state = .payload ∧ 64 ≤ u.payloadPosition.toNat ∧
      u.payloadPosition.toNat + 1 = u.bufPayloadSize.toNat := by decide

theorem witness_rows_outside :
    refA.callback ≠ none ∧ Instr.wellFormed refA.ctx (.rxSync1Match 1) = false ∧
      Instr.wellFormed refA.ctx (.rxSync1Miss 0xAA) = false ∧
      Instr.wellFormed refA.ctx (.rxPayloadLast 1) = false ∧
      65 ≤ (65#8).toNat ∧ (64#8).toNat ≤ 64 := by decide

theorem witness_inv : Inv { at4 .payload 63 0 0 with bufPayloadSize := 64, payload := [(63, 1)] } :=
  ⟨fun _ => by decide, by decide, by decide⟩

theorem witness_dutiful :
    ({ at4 .payload 63 0 0 with
        reactions := [[.transmit ⟨1, [2], 1, 0⟩, .transmit ⟨1, [], 65, 0⟩]] } : State).callback ≠ none ∧
      HandlerDutiful { at4 .payload 63 0 0 with
        reactions := [[.transmit ⟨1, [2], 1, 0⟩, .transmit ⟨1, [], 65, 0⟩]] } :=
  ⟨by decide, by unfold HandlerDutiful; decide⟩

theorem witness_delivery :
    readAfter (exec (.consume 0) (at4 .payloadSize 0 0 0)) msgs = some [⟨0, 0, 0, []⟩] ∧
      nextCalls (at4 .payloadSize 0 0 0) = [] := by decide

theorem witness_reentrant :
    let pre : List HandlerCall := [.transmit ⟨1, [2], 1, 0⟩, .transmit ⟨1, [], 65, 0⟩,
      .reportStatus ⟨1, 2, 3, 4, 5⟩ 0]
    let s : State := { at4 .payload 63 0 0 with bufPayloadSize := 64, reactions := [pre ++ [.consume 1]] }
    let u : State := { at4 .payloadSize 0 0 0 with reactions := [pre ++ [.writeBuffer 0 1]] }
    s.callback ≠ none ∧ s.state = .payload ∧
      s.payloadPosition.toNat + 1 = s.bufPayloadSize.toNat ∧ s.payloadPosition.toNat < 64 ∧
      (∀ c ∈ pre, allowedCall c = true) ∧ nextCalls s = pre ++ .consume 1 :: [] ∧
      nextCalls { s with reactions := [[.onSilence]] } = [] ++ .onSilence :: [] ∧
      nextCalls { s with reactions := [pre ++ [.init none]] } = pre ++ .init none :: [] ∧
      u.state = .payloadSize ∧ nextCalls u = pre ++ .writeBuffer 0 1 :: [] ∧
      nextCalls { u with reactions := [[.transmit ⟨1, [], 1, 0⟩]] } =
        [] ++ .transmit ⟨1, [], 1, 0⟩ :: [] ∧ (1#8).toNat ≤ 64 ∧
      ([] : List Byte).length < (1#8).toNat := by decide

theorem witness_status_report :
    let s : State :=
      { at4 .payloadSize 0 0 255 with reactions := [[.reportStatus ⟨1, 2, 3, 4, 5⟩ 255]] }
    s.callback = some ⟨0⟩ ∧ s.state = .payloadSize ∧
      nextCalls s = [.reportStatus ⟨1, 2, 3, 4, 5⟩ 255] := by decide

theorem witness_overlapping :
    let s : State := { at4 .payload 63 0 0 with
      bufPayloadSize := 64, reactions := [[.onSilence, .transmit ⟨1, [], 0, 0⟩]] }
    s.state = .payload ∧ s.payloadPosition.toNat + 1 = s.bufPayloadSize.toNat ∧
      (∃ tx, HandlerCall.transmit ⟨1, [], 0, 0⟩ = .transmit tx) ∧
      nextCalls s = [.onSilence] ++ .transmit ⟨1, [], 0, 0⟩ :: [] :=
  ⟨rfl, rfl, ⟨_, rfl⟩, rfl⟩

/-- The premises of `TransmitCommutesWithReceiving`: a byte that completes no frame under a handler that
would transmit, a completing byte under one that would not, a silence event, and both forms. -/
theorem witness_commutes :
    let s : State := { at4 .payload 0 0 0 with
      bufPayloadSize := 2, reactions := [[.transmit ⟨1, [], 0, 0⟩]] }
    let u : State := at4 .payloadSize 0 0 0
    (completesFrame 5 s = false ∧ readAfter (exec (.consume 5) s) State.state = some .payload ∧
      readAfter (exec .onSilence s) State.state = some .sync1 ∧
      readAfter (exec (.transmitReject 1 [] 65 0) s) State.results = some [.errOversize]) ∧
    (completesFrame 0 u = true ∧ handlerTransmits u = false ∧
      readAfter (exec (.consume 0) u) State.state = some .sync1 ∧
      readAfter (exec (.transmitOk 1 [7] 1 2) u) State.txId = some 1) := by decide

theorem witness_transmit :
    refA.callback ≠ none ∧ (64#8).toNat ≤ 64 ∧ (64#8).toNat ≤ (List.replicate 64 0#8).length ∧
      65 ≤ (65#8).toNat ∧ (List.replicate 63 0#8).length < (64#8).toNat := by decide

theorem witness_transmit_next :
    (readAfter (exec (.transmitOk 1 [7] 1 2) refA) (fun t => t.writes.length)) = some 3 ∧
      nextCalls refA = [] ∧
      readAfter (exec (.consume 0xAA) refA) State.state = some .sync2 ∧
      readAfter (exec .onSilence refA) State.state = some .sync1 := by decide

/-- The empty and the largest frame; the stale buffer is any canonical one. -/
theorem witness_frame :
    let s : State := { refA with payload := [(0, 3), (63, 9)] }
    s.callback = some ⟨0⟩ ∧ s.state = .sync1 ∧ Memory.wf s.payload = true ∧ nextCalls s = [] ∧
      (0#8).toNat ≤ 64 ∧ ([] : List Byte).length = (0#8).toNat ∧
      (64#8).toNat ≤ 64 ∧ (List.replicate 64 5#8).length = (64#8).toNat ∧ 65 ≤ (65#8).toNat := by
  decide

theorem witness_stray_sync :
    (at4 .sync2 0 0 255).callback = some ⟨0⟩ ∧ (at4 .sync2 0 0 255).state = .sync2 ∧
      (at4 .sync2 0 0 255).sync1Val ≠ (at4 .sync2 0 0 255).sync2Val ∧
      Memory.wf (at4 .sync2 0 0 255).payload = true ∧ nextCalls (at4 .sync2 0 0 255) = [] := by decide

/-- Both blocks at once: what REF-B accepts to send, and a listening decoder with the same values. -/
theorem witness_round_trip :
    let v : State := { refB with reactions := [[]], payload := [(0, 3)] }
    readAfter (exec (.transmitOk 0x55 [0x55] 1 255) refB) State.txId = some 1#8 ∧
      v.sync1Val = refB.sync1Val ∧ v.sync2Val = refB.sync2Val ∧ v.callback ≠ none ∧
      v.state = .sync1 ∧ Memory.wf v.payload = true ∧ HandlerQuiet v :=
  ⟨rfl, rfl, rfl, by decide, rfl, rfl, by unfold HandlerQuiet; decide⟩

/-- Both shapes of the byte that completes a frame, with a call at that delivery. -/
theorem witness_completing :
    let s : State := { at4 .payloadSize 0 0 0 with reactions := [[.transmit ⟨1, [], 0, 0⟩]] }
    let u : State := { at4 .payload 63 0 0 with bufPayloadSize := 64, reactions := [[.onSilence]] }
    (s.state = .payloadSize ∧ 0#8 = 0#8) ∧
      (u.state = .payload ∧ u.payloadPosition.toNat + 1 = u.bufPayloadSize.toNat) := by decide

/-- One state for each of the four bounds. -/
theorem witness_regain :
    let bounds := [(DecState.cmd, 67), (.id, 66), (.payloadSize, 65), (.payload, 64)]
    let u : State := { at4 .payload 0 0 0 with bufPayloadSize := 64 }
    (Inv (at4 .cmd 0 0 0) ∧ HandlerDutiful (at4 .cmd 0 0 0) ∧ ((at4 .cmd 0 0 0).state, 67) ∈ bounds) ∧
    (Inv (at4 .id 0 0 0) ∧ HandlerDutiful (at4 .id 0 0 0) ∧ ((at4 .id 0 0 0).state, 66) ∈ bounds) ∧
    (Inv (at4 .payloadSize 0 0 0) ∧ HandlerDutiful (at4 .payloadSize 0 0 0) ∧
      ((at4 .payloadSize 0 0 0).state, 65) ∈ bounds) ∧
    (Inv u ∧ HandlerDutiful u ∧ (u.state, 64) ∈ bounds) ∧
    u.callback ≠ none ∧ (List.replicate 67 0#8).length = 67 :=
  ⟨⟨⟨fun h => by simp [at4] at h, by decide, by decide⟩, by unfold HandlerDutiful; decide, by decide⟩,
    ⟨⟨fun h => by simp [at4] at h, by decide, by decide⟩, by unfold HandlerDutiful; decide, by decide⟩,
    ⟨⟨fun h => by simp [at4] at h, by decide, by decide⟩, by unfold HandlerDutiful; decide, by decide⟩,
    ⟨⟨fun _ => by decide, by decide, by decide⟩, by unfold HandlerDutiful; decide, by decide⟩,
    by decide, by decide⟩

theorem witness_vocabulary (c : Byte) :
    (at4 .cmd 0 0 0).callback ≠ none ∧ (at4 .cmd 0 0 0).state = .cmd ∧
      Instr.vocL2mStatus c ∈ [.vocM2lLedOn c, .vocM2lLedOff c, .vocM2lProfileSet c,
        .vocM2lProfileNext c, .vocM2lProfilePrev c, .vocM2lIntensityNext c, .vocM2lIntensitySet c,
        .vocM2lAnimationSpeed c, .vocM2lMaskKey c, .vocM2lMaskRow c, .vocM2lMaskMono c,
        .vocM2lStatusQuery c, .vocM2lKeyDown c, .vocM2lKeyBlink c, .vocM2lIap c, .vocL2mDebug c,
        .vocL2mStatus c] := ⟨by decide, rfl, by simp⟩

theorem witness_exec_next :
    (∀ h, Instr.rxSizeOver 65 ≠ .init h) ∧
      readAfter (exec (.rxSizeOver 65) (at4 .payloadSize 0 0 7)) State.errors = some 8 :=
  ⟨by simp, by decide⟩

theorem witness_step_next :
    readAfter (step { at4 .payloadSize 0 0 0 with
      received := [0xAA, 0x0D, 0, 0], requests := [0x10, 0] }) msgs = some [⟨0, 0, 0, []⟩] := by
  decide

theorem witness_stream :
    Inv { at4 .payloadSize 0 0 0 with received := [0xAA, 0x0D, 0, 0], requests := [0x10, 0] } ∧
    StreamInv
      { at4 .payloadSize 0 0 0 with received := [0xAA, 0x0D, 0, 0], requests := [0x10, 0] } :=
  ⟨⟨fun h => by simp [at4] at h, by decide, by decide⟩, ⟨by decide, by simp [at4, refA, State.resetWith]⟩⟩

theorem witness_wellFormed :
    Instr.wellFormed (ctxA .payload 63 64) (.rxPayloadLast 1) = true ∧
    Instr.wellFormed (ctxA .sync1 0 0) (.transmitOk 1 [1, 2] 2 255) = true ∧
    Instr.wellFormed (ctxA .sync1 0 0) (.transmitReject 1 [] 65 255) = true ∧
    Instr.wellFormed (ctxA .sync1 0 0) (.frame 0xAA 0x0D 1 2 2 [1, 2]) = true ∧
    Instr.wellFormed refA.ctx (.rxSync1Miss 0) = true := by decide

/-- The longest operands a row allows. -/
theorem witness_wellFormed_longest (p q : List Byte) (hp : p.length = 64) (hq : q.length = 255) :
    Instr.wellFormed (ctxA .sync1 0 0) (.transmitOk 1 q 64 255) = true ∧
    Instr.wellFormed (ctxA .sync1 0 0) (.frame 0xAA 0x0D 1 2 64 p) = true := by
  simp [Instr.wellFormed, ctxA, hp, hq]

theorem witness_decoded :
    decode refA.ctx [0x10, 0xAA, 0x02] = .ok (.rxSync1Match 0xAA, [0x02]) ∧ refA.requests = [] ∧
      ({ refA with requests := [0x00, 0x02] } : State).requests = 0#8 :: [0x02] := by decide

theorem witness_overlap :
    0x06#8 ∈ [0x06#8, 0x07#8, 0x09#8, 0x0A#8, 0x0B#8, 0x0C#8, 0x0D#8, 0x0E#8, 0x0F#8] ∧
      0x0F#8 ∈ [0x06#8, 0x07#8, 0x09#8, 0x0A#8, 0x0B#8, 0x0C#8, 0x0D#8, 0x0E#8, 0x0F#8] := by decide

theorem witness_watchdog :
    0 < 1 ∧ (([] : List LineEvent) = [] ∨ ∃ b' rest, ([] : List LineEvent) = .byte b' :: rest) ∧
      ∃ b' rest, [LineEvent.byte 2, .tick] = .byte b' :: rest :=
  ⟨by decide, .inl rfl, 2, [.tick], rfl⟩

theorem witness_error_count : (254#8).toNat < 255 ∧ (255#8).toNat = 255 := by decide

end Sys2Proof.Tests
end

section
/-! PROOFS. The statements of 00_scope.md: the parameters and the handler (R8), and what a step is
(R7). -/

namespace Sys2Proof.Machine

/-! ### What only INIT may change -/

/-- The sync values and the bound handler are the same in both states (00_scope.md R8, 10_state.md
R33). -/
structure SameParameters (s t : State) : Prop where
  sync1Val : t.sync1Val = s.sync1Val
  sync2Val : t.sync2Val = s.sync2Val
  callback : t.callback = s.callback

theorem SameParameters.refl (s : State) : SameParameters s s := ⟨rfl, rfl, rfl⟩

theorem SameParameters.trans {s t u : State} (h : SameParameters s t) (h' : SameParameters t u) :
    SameParameters s u :=
  ⟨h'.sync1Val.trans h.sync1Val, h'.sync2Val.trans h.sync2Val, h'.callback.trans h.callback⟩

theorem OnlySends.sameParameters {s t : State} (h : OnlySends s t) : SameParameters s t := by
  rw [h.frame]
  exact ⟨rfl, rfl, rfl⟩

theorem storePayload_sameParameters {b : Byte} {s t : State} (h : storePayload b s = .next t) :
    SameParameters s t := by
  obtain ⟨-, rfl⟩ := storePayload_next h
  exact ⟨rfl, rfl, rfl⟩

/-- A completion keeps the parameters whatever the handler does: its calls only send. -/
theorem complete_sameParameters {s t : State} (h : complete s = .next t) : SameParameters s t := by
  obtain ⟨k, u, -, hu, rfl⟩ := complete_next h
  have recorded : SameParameters s (recordDelivery k (recordId s)) := ⟨rfl, rfl, rfl⟩
  have returned : SameParameters u (goTo .sync1 u) := ⟨rfl, rfl, rfl⟩
  exact recorded.trans ((runCalls_onlySends hu).sameParameters.trans returned)

theorem consumeByte_sameParameters {b : Byte} {s t : State} (h : consumeByte b s = .next t) :
    SameParameters s t := by
  rcases consumeByte_next h with ⟨-, rfl⟩ | ⟨-, -, rfl⟩ | ⟨-, -, -, rfl⟩ | ⟨-, -, -, rfl⟩ |
    ⟨-, rfl⟩ | ⟨-, rfl⟩ | ⟨-, -, rfl⟩ | ⟨-, -, completed⟩ | ⟨-, -, -, rfl⟩ |
    ⟨-, u, stored, ⟨-, rfl⟩ | ⟨-, completed⟩⟩
  · split <;> exact ⟨rfl, rfl, rfl⟩
  iterate 6 exact ⟨rfl, rfl, rfl⟩
  · have sized : SameParameters s (setPosition 0#8 (setSize b s)) := ⟨rfl, rfl, rfl⟩
    exact sized.trans (complete_sameParameters completed)
  · exact ⟨rfl, rfl, rfl⟩
  · exact storePayload_sameParameters stored
  · exact (storePayload_sameParameters stored).trans (complete_sameParameters completed)

theorem consume_sameParameters {b : Byte} {s t : State} (h : consume b s = .next t) :
    SameParameters s t := by
  have noted : SameParameters s (noteByte b s) := ⟨rfl, rfl, rfl⟩
  exact noted.trans (consumeByte_sameParameters (consume_next h).2)

theorem consumeAll_sameParameters {bs : List Byte} {s t : State}
    (h : consumeAll bs s = .next t) : SameParameters s t :=
  consumeAll_keeps SameParameters.refl SameParameters.trans consume_sameParameters h

/-! ### The step of each kind of request -/

theorem step_of_no_requests {s : State} (h : s.requests = []) : step s = .next s := by
  simp [step, fetch, h]

theorem step_of_idle_byte {s : State} {rest : List Byte} (h : s.requests = 0#8 :: rest) :
    step s = .next (setRequests rest s) := by
  simp [step, fetch, h]

/-- The idle byte asserts no strobe, so no instruction begins with it. -/
theorem decode_idle_byte (c : Ctx) (rest : List Byte) :
    decode c (0#8 :: rest) = .error .noStrobe := rfl

/-- Requests that decode are run, unless they are two TRANSMITs at once (43_encoder.md R174). -/
theorem step_of_decoded {s : State} {i : Instr} {rest : List Byte}
    (h : decode s.ctx s.requests = .ok (i, rest)) :
    step s = if overlappingTransmits s then .refused .overlap
      else exec i (setRequests rest s) := by
  cases hr : s.requests with
  | nil => simp [hr, decode] at h
  | cons lead bs =>
    have hl : lead ≠ 0#8 := by
      rintro rfl
      simp [hr, decode_idle_byte] at h
    rw [hr] at h
    cases ho : overlappingTransmits s <;> simp [step, fetch, hr, hl, ho, h]

end Sys2Proof.Machine

open Sys2Proof.Machine

/-- Settles O45: of the four ways an instruction moves the block, only INIT's writes touch a
parameter, and of them only the callback. -/
theorem parametersNeverChange : Obligations.ParametersNeverChange := by
  intro s t i h
  have unlessInit (same : SameParameters s t) : t.sync1Val = s.sync1Val ∧
      t.sync2Val = s.sync2Val ∧ ((∀ k, i ≠ .init k) → t.callback = s.callback) :=
    ⟨same.sync1Val, same.sync2Val, fun _ => same.callback⟩
  cases exec_moves h with
  | init k hi ht =>
    subst ht
    exact ⟨rfl, rfl, fun noInit => absurd hi (noInit _)⟩
  | silence _ _ ht =>
    subst ht
    exact unlessInit ⟨rfl, rfl, rfl⟩
  | send _ _ _ ht => exact unlessInit (transmit_onlySends ht).sameParameters
  | receive _ _ _ ht => exact unlessInit (consumeAll_sameParameters ht)

/-- Settles O52: each clause is the fetch of one kind of request. -/
theorem stepRunsTheDecodedInstruction : Obligations.StepRunsTheDecodedInstruction :=
  fun _ _ _ => ⟨step_of_decoded, step_of_no_requests, step_of_idle_byte⟩
end

section
/-! PROOFS. The statements of 10_state.md: the count of framing errors (R26, R27), `previousId` (R24), and
the invariants INV1 to INV5 with their base case and their step (R37, R38). -/

namespace Sys2Proof.Machine

/-! ### What sending leaves alone, and COMPLETE as one delivery with sends after it -/

theorem OnlySends.errors {s t : State} (h : OnlySends s t) : t.errors = s.errors := by
  rw [h.frame]

theorem OnlySends.previousId {s t : State} (h : OnlySends s t) :
    t.previousId = s.previousId := by
  rw [h.frame]

theorem OnlySends.delivered {s t : State} (h : OnlySends s t) : t.delivered = s.delivered := by
  rw [h.frame]

/-- The handler's calls do not see where the sequencer goes afterwards, so COMPLETE is the delivery and
the return to SYNC_1, and then only sends. -/
theorem complete_onlySends {s t : State} (h : complete s = .next t) :
    ∃ k, OnlySends (goTo .sync1 (recordDelivery k (recordId s))) t := by
  obtain ⟨k, u, -, hu, rfl⟩ := complete_next h
  have sends := runCalls_onlySends hu
  exact ⟨k, congrArg (goTo .sync1) sends.frame, sends.writes, sends.results⟩

/-! ### An invariant of the machine -/

/-- What the environment's next request, INIT, a silence reset, sends and every CONSUME keep, a step
keeps (10_state.md R38). -/
theorem step_keeps {P : State → Prop}
    (requested : ∀ {s bs}, P s → P (setRequests bs s))
    (initialised : ∀ {s k}, P s → P (initialise k s))
    (silenced : ∀ {s}, P s → P (goTo .sync1 s))
    (sent : ∀ {s t}, OnlySends s t → P s → P t)
    (consumed : ∀ {b s t}, consume b s = .next t → P s → P t)
    {s t : State} (h : step s = .next t) (hs : P s) : P t := by
  rcases step_next h with ⟨bs, rfl⟩ | ⟨i, bs, hi⟩
  · exact requested hs
  · have hs := requested (bs := bs) hs
    cases exec_moves hi with
    | init k _ ht => exact ht ▸ initialised hs
    | silence _ _ ht => exact ht ▸ silenced hs
    | send _ _ _ ht => exact sent (transmit_onlySends ht) hs
    | receive _ _ _ ht =>
      exact consumeAll_keeps (R := fun s t => P s → P t) (fun _ h => h)
        (fun first then_ h => then_ (first h)) consumed ht hs

/-! ### The payload store -/

theorem storePayload_position {b : Byte} {s u : State} (h : storePayload b s = .next u) :
    u.payloadPosition.toNat = s.payloadPosition.toNat + 1 := by
  obtain ⟨hp, rfl⟩ := storePayload_next h
  exact nextPosition_toNat (by omega)

theorem storePayload_wf {b : Byte} {s u : State} (h : storePayload b s = .next u)
    (hw : Memory.wf s.payload = true) : Memory.wf u.payload = true := by
  obtain ⟨hp, rfl⟩ := storePayload_next h
  exact memWrite_wf b hp hw

end Sys2Proof.Machine

/-! ### INV1, INV2 and INV5: the bounds -/

namespace Sys2Proof

open Sys2Proof.Machine

/-- Outside PAYLOAD, INV1 says nothing. -/
theorem Inv.of_not_payload {s : State} (hs : s.state ≠ .payload)
    (hp : s.payloadPosition.toNat ≤ 64) (hw : Memory.wf s.payload = true) : Inv s :=
  ⟨fun h => absurd h hs, hp, hw⟩

theorem Inv.noteByte {s : State} (hi : Inv s) (b : Byte) : Inv (noteByte b s) :=
  ⟨hi.payloadBound, hi.positionBound, hi.payloadWf⟩

theorem Inv.setRequests {s : State} (hi : Inv s) (bs : List Byte) : Inv (setRequests bs s) :=
  ⟨hi.payloadBound, hi.positionBound, hi.payloadWf⟩

theorem Inv.initialise {s : State} (hi : Inv s) (k : Handler) : Inv (initialise k s) :=
  .of_not_payload (by simp) (by simp) hi.payloadWf

theorem Inv.silenced {s : State} (hi : Inv s) : Inv (goTo .sync1 s) :=
  .of_not_payload (by simp) hi.positionBound hi.payloadWf

theorem Inv.of_onlySends {s t : State} (hi : Inv s) (h : OnlySends s t) : Inv t := by
  rw [h.frame]
  exact ⟨hi.payloadBound, hi.positionBound, hi.payloadWf⟩

/-- A completion ends outside PAYLOAD, so it meets the bounds even where the position has reached the
size. -/
theorem complete_inv {s t : State} (h : complete s = .next t)
    (hp : s.payloadPosition.toNat ≤ 64) (hw : Memory.wf s.payload = true) : Inv t := by
  obtain ⟨k, sends⟩ := complete_onlySends h
  have resting : Inv (goTo .sync1 (recordDelivery k (recordId s))) :=
    .of_not_payload (by simp) hp hw
  exact resting.of_onlySends sends

/-- A payload byte moves the position up to the size at most. -/
theorem storePayload_le_size {b : Byte} {s u : State} (hi : Inv s) (hs : s.state = .payload)
    (h : storePayload b s = .next u) :
    u.payloadPosition.toNat ≤ u.bufPayloadSize.toNat ∧ u.bufPayloadSize.toNat ≤ 64 := by
  obtain ⟨-, hn, hlt⟩ := hi.payloadBound hs
  have hp := storePayload_position h
  have hsize : u.bufPayloadSize = s.bufPayloadSize := by
    obtain ⟨-, rfl⟩ := storePayload_next h
    rfl
  rw [hsize]
  omega

theorem consumeByte_inv {b : Byte} {s t : State} (h : consumeByte b s = .next t) (hi : Inv s) :
    Inv t := by
  rcases consumeByte_next h with ⟨-, rfl⟩ | ⟨-, -, rfl⟩ | ⟨-, -, -, rfl⟩ | ⟨-, -, -, rfl⟩ |
    ⟨-, rfl⟩ | ⟨-, rfl⟩ | ⟨-, -, rfl⟩ | ⟨-, -, completed⟩ | ⟨-, hn, h0, rfl⟩ |
    ⟨hs, u, stored, more⟩
  · split
    · exact .of_not_payload (by simp) hi.positionBound hi.payloadWf
    · exact hi
  iterate 6 exact .of_not_payload (by simp) hi.positionBound hi.payloadWf
  · exact complete_inv completed (by simp) hi.payloadWf
  · have hpos : 1 ≤ b.toNat := Nat.one_le_iff_ne_zero.mpr fun hb => h0 (BitVec.eq_of_toNat_eq hb)
    exact ⟨fun _ => ⟨hpos, (isOversize_false_iff b).mp hn, hpos⟩, Nat.zero_le _, hi.payloadWf⟩
  · obtain ⟨hle, hn⟩ := storePayload_le_size hi hs stored
    have hw := storePayload_wf stored hi.payloadWf
    rcases more with ⟨hne, rfl⟩ | ⟨-, completed⟩
    · have hlt := Nat.lt_of_le_of_ne hle fun he => hne (BitVec.eq_of_toNat_eq he)
      exact ⟨fun _ => ⟨by omega, hn, hlt⟩, hle.trans hn, hw⟩
    · exact complete_inv completed (hle.trans hn) hw

theorem consume_inv {b : Byte} {s t : State} (h : consume b s = .next t) (hi : Inv s) : Inv t :=
  consumeByte_inv (consume_next h).2 (hi.noteByte b)

theorem step_inv {s t : State} (h : step s = .next t) (hi : Inv s) : Inv t :=
  step_keeps (fun hi => hi.setRequests _) (fun hi => hi.initialise _) (fun hi => hi.silenced)
    (fun sends hi => hi.of_onlySends sends) consume_inv h hi

/-! ### INV3 and INV4: the stream -/

/-- What was delivered out of a stream was delivered out of the longer one. -/
theorem DeliveryFaithful.append {r : List Byte} {d : Delivery} (h : DeliveryFaithful r d)
    (bs : List Byte) : DeliveryFaithful (r ++ bs) d := by
  obtain ⟨hn, hlen, hpos, hsuf⟩ := h
  refine ⟨hn, hlen, ?_, ?_⟩
  · rw [List.length_append]
    omega
  · rwa [List.take_append_of_le_length hpos]

/-- With nothing under assembly only the deliveries are to be shown. -/
theorem StreamInv.of_nothing_assembling {s : State} (hs : partialFrame s = [])
    (hd : ∀ d ∈ s.delivered, DeliveryFaithful s.received d) : StreamInv s :=
  ⟨hs ▸ List.nil_suffix, hd⟩

/-- The stream's invariant reads nothing that sending changes. -/
theorem StreamInv.of_onlySends {s t : State} (hi : StreamInv s) (h : OnlySends s t) :
    StreamInv t := by
  rw [h.frame]
  exact ⟨hi.assembling, hi.delivered⟩

/-- The consumed byte is not yet in the buffer when it joins the stream. -/
theorem partialFrame_noteByte (b : Byte) (s : State) :
    partialFrame (noteByte b s) = partialFrame s := rfl

/-- A payload byte joins the frame under assembly. -/
theorem partialFrame_storePayload {b : Byte} {s u : State} (h : storePayload b s = .next u)
    (hs : s.state = .payload) (hw : Memory.wf s.payload = true) :
    partialFrame u = partialFrame s ++ [b] := by
  have hp := storePayload_position h
  obtain ⟨-, rfl⟩ := storePayload_next h
  simp only [setPosition_payloadPosition] at hp
  simp [partialFrame, hs, hp, memSlice_memWrite_succ _ b hw]

/-- With the position at the size the frame under assembly is the whole message (R37 INV4). -/
theorem partialFrame_of_full {s : State} (hs : s.state = .payload)
    (hp : s.payloadPosition = s.bufPayloadSize) :
    partialFrame s = messageBytes (message s) := by
  simp [partialFrame, messageBytes, message, hs, hp]

/-- A completion delivers what the buffer holds; if that is the end of the stream the delivery is
faithful, and nothing is left under assembly. -/
theorem complete_stream {s t : State} (h : complete s = .next t)
    (hn : s.bufPayloadSize.toNat ≤ 64) (hm : messageBytes (message s) <:+ s.received)
    (hd : ∀ d ∈ s.delivered, DeliveryFaithful s.received d) : StreamInv t := by
  obtain ⟨k, sends⟩ := complete_onlySends h
  refine StreamInv.of_onlySends (.of_nothing_assembling rfl fun d hmem => ?_) sends
  rcases List.mem_append.mp hmem with old | new
  · exact hd d old
  · obtain rfl := List.mem_singleton.mp new
    refine ⟨hn, memSlice_length _ _, Nat.le_refl _, ?_⟩
    exact (List.take_length (l := s.received)).symm ▸ hm

/-- Every byte empties the frame under assembly, starts it, joins it, or completes it, and it joins the
stream. -/
theorem consume_stream {b : Byte} {s t : State} (h : consume b s = .next t) (hi : Inv s)
    (hs : StreamInv s) : StreamInv t := by
  have fed : partialFrame s ++ [b] <:+ s.received ++ [b] :=
    List.suffix_append_self_iff.mpr hs.assembling
  have kept : ∀ d ∈ s.delivered, DeliveryFaithful (s.received ++ [b]) d :=
    fun d hd => (hs.delivered d hd).append [b]
  have stateBefore {st : DecState} (hst : (noteByte b s).state = st) : s.state = st := hst
  rcases consumeByte_next (consume_next h).2 with ⟨hst, rfl⟩ | ⟨-, -, rfl⟩ | ⟨-, -, -, rfl⟩ |
    ⟨-, -, -, rfl⟩ | ⟨-, rfl⟩ | ⟨hst, rfl⟩ | ⟨-, -, rfl⟩ | ⟨hst, rfl, completed⟩ |
    ⟨hst, -, -, rfl⟩ | ⟨hst, u, stored, more⟩
  · split
    · exact .of_nothing_assembling rfl kept
    · exact .of_nothing_assembling (by simp [partialFrame, stateBefore hst]) kept
  iterate 3 exact .of_nothing_assembling rfl kept
  · exact ⟨List.suffix_append _ _, kept⟩
  · exact ⟨by simpa [partialFrame, stateBefore hst] using fed, kept⟩
  · exact .of_nothing_assembling rfl kept
  · exact complete_stream completed (by simp)
      (by simpa [partialFrame, stateBefore hst, messageBytes, message] using fed) kept
  · exact ⟨by simpa [partialFrame, stateBefore hst] using fed, kept⟩
  · have joined : partialFrame u = partialFrame s ++ [b] := by
      rw [partialFrame_storePayload stored hst hi.payloadWf, partialFrame_noteByte]
    obtain ⟨-, hn⟩ := storePayload_le_size (hi.noteByte b) hst stored
    have hu : u.state = .payload ∧ u.received = s.received ++ [b] ∧ u.delivered = s.delivered := by
      obtain ⟨-, rfl⟩ := storePayload_next stored
      exact ⟨hst, rfl, rfl⟩
    obtain ⟨hu, received, delivered⟩ := hu
    rw [← received, ← joined] at fed
    rw [← received, ← delivered] at kept
    rcases more with ⟨-, rfl⟩ | ⟨hfull, completed⟩
    · exact ⟨fed, kept⟩
    · exact complete_stream completed hn (partialFrame_of_full hu hfull ▸ fed) kept

/-- The bounds and the stream's invariant together. -/
structure Sound (s : State) : Prop where
  bounds : Inv s
  stream : StreamInv s

theorem step_sound {s t : State} (h : step s = .next t) (hs : Sound s) : Sound t :=
  step_keeps (P := Sound)
    (fun hs => ⟨hs.bounds.setRequests _, hs.stream.assembling, hs.stream.delivered⟩)
    (fun hs => ⟨hs.bounds.initialise _, .of_nothing_assembling rfl hs.stream.delivered⟩)
    (fun hs => ⟨hs.bounds.silenced, .of_nothing_assembling rfl hs.stream.delivered⟩)
    (fun sends hs => ⟨hs.bounds.of_onlySends sends, hs.stream.of_onlySends sends⟩)
    (fun h hs => ⟨consume_inv h hs.bounds, consume_stream h hs.bounds hs.stream⟩) h hs

end Sys2Proof

namespace Sys2Proof.Machine

/-- ON_SILENCE is the return to SYNC_1, after an INIT (42_silence.md R150). -/
theorem exec_onSilence (s : State) :
    exec .onSilence s =
      if s.callback = none then .refused .beforeInit else .next (goTo .sync1 s) := by
  by_cases hs : s.callback = none
  · simp [exec, execOnSilence, whenInitialised_none hs, hs]
  · simp [exec, execOnSilence, whenInitialised_bound hs, hs]

/-! ### Faults -/

/-- CONSUME faults only at the store of a payload byte, outside the buffer (20_memory.md R52). -/
theorem consumeByte_fault {b : Byte} {s : State} {e : Fault} (h : consumeByte b s = .fault e) :
    s.state = .payload ∧ 64 ≤ s.payloadPosition.toNat := by
  unfold consumeByte at h
  split at h
  case h_5 =>
    split at h
    · cases h
    · split at h
      · exact absurd h (complete_ne_fault _ _)
      · cases h
  case h_6 hs =>
    refine ⟨hs, Nat.not_lt.mp fun hp => ?_⟩
    rw [storePayload_inside hp, andThen_of_next] at h
    split at h
    · exact complete_ne_fault _ _ h
    · cases h
  all_goals cases h

theorem consume_fault {b : Byte} {s : State} {e : Fault} (h : consume b s = .fault e) :
    s.state = .payload ∧ 64 ≤ s.payloadPosition.toNat := by
  by_cases hs : s.callback = none
  · simp [consume, whenInitialised_none hs] at h
  · exact consumeByte_fault (s := noteByte b s) (consume_bound b hs ▸ h)

/-- A row whose effect cannot fault cannot. -/
theorem onlyWhen_ne_fault {m : String} {c : Bool} {s : State} {f : State → Result} {e : Fault}
    (hf : f s ≠ .fault e) : onlyWhen m c s f ≠ .fault e :=
  fun h => hf (onlyWhen_fault h).2.2

/-- A run of one byte faults where its CONSUME does. -/
theorem consume_fault_run {b : Byte} {s : State} {e : Fault} (h : consume b s = .fault e) :
    ∃ bs, consumeAll bs s = .fault e :=
  ⟨[b], (consumeAll_one b s).trans h⟩

/-- An instruction faults only where a run of CONSUMEs does. -/
theorem exec_fault {i : Instr} {s : State} {e : Fault} (h : exec i s = .fault e) :
    ∃ bs, consumeAll bs s = .fault e := by
  cases i with
  | init o => cases o <;> cases h
  | onSilence =>
    rw [exec_onSilence] at h
    split at h <;> cases h
  | transmitOk c p n r | transmitReject c p n r =>
    exact absurd h (onlyWhen_ne_fault (transmit_ne_fault _ s e))
  | rxSizeZero =>
    simp only [exec] at h
    exact absurd h (onlyWhen_ne_fault (complete_ne_fault _ e))
  | rxPayloadMore d =>
    have hx : execRxPayloadMore d s = .fault e := h
    obtain ⟨hs, hc, -⟩ := onlyWhen_fault hx
    simp only [Bool.and_eq_true, decide_eq_true_eq] at hc
    exact consume_fault_run ((rxPayloadMore_eq_consume hs hc.1 hc.2).symm.trans h)
  | rxPayloadLast d =>
    have hx : execRxPayloadLast d s = .fault e := h
    obtain ⟨hs, hc, -⟩ := onlyWhen_fault hx
    simp only [Bool.and_eq_true, decide_eq_true_eq] at hc
    exact consume_fault_run ((rxPayloadLast_eq_consume hs hc.1 hc.2).symm.trans h)
  | rxSync1Match b | rxSync1Miss b | rxSync2Match b | rxSync2MissResync b | rxSync2MissDrop b
  | rxCmd b | rxId b | rxSizeOk b | rxSizeOver b =>
    simp only [exec] at h
    exact absurd h (onlyWhen_ne_fault (by simp))
  | frame sy1 sy2 c d n p => exact ⟨_, h⟩
  | consume b | vocM2lLedOn b | vocM2lLedOff b | vocM2lProfileSet b | vocM2lProfileNext b
  | vocM2lProfilePrev b | vocM2lIntensityNext b | vocM2lIntensitySet b | vocM2lAnimationSpeed b
  | vocM2lMaskKey b | vocM2lMaskRow b | vocM2lMaskMono b | vocM2lStatusQuery b | vocM2lKeyDown b
  | vocM2lKeyBlink b | vocM2lIap b | vocL2mDebug b | vocL2mStatus b =>
    exact consume_fault_run h

/-- A sound block consumes no bytes that make it fault (10_state.md R37 INV5). -/
theorem consumeAll_ne_fault {bs : List Byte} {s : State} (hi : Inv s) (e : Fault) :
    consumeAll bs s ≠ .fault e := by
  induction bs generalizing s with
  | nil => simp
  | cons b bs ih =>
    intro h
    rcases andThen_fault_iff.mp h with now | ⟨u, hu, later⟩
    · obtain ⟨hs, hp⟩ := consume_fault now
      obtain ⟨-, hn, hlt⟩ := hi.payloadBound hs
      omega
    · exact ih (consume_inv hu hi) later

/-! ### The count of framing errors -/

theorem le_incSat (e : Byte) : e.toNat ≤ (incSat e).toNat := by
  rw [incSat_toNat]
  omega

theorem complete_errors {s t : State} (h : complete s = .next t) : t.errors = s.errors := by
  obtain ⟨k, sends⟩ := complete_onlySends h
  exact sends.errors

theorem storePayload_errors {b : Byte} {s u : State} (h : storePayload b s = .next u) :
    u.errors = s.errors := by
  obtain ⟨-, rfl⟩ := storePayload_next h
  rfl

/-- A CONSUME counts one error or none. -/
theorem consumeByte_errors {b : Byte} {s t : State} (h : consumeByte b s = .next t) :
    t.errors = s.errors ∨ t.errors = incSat s.errors := by
  rcases consumeByte_next h with ⟨-, rfl⟩ | ⟨-, -, rfl⟩ | ⟨-, -, -, rfl⟩ | ⟨-, -, -, rfl⟩ |
    ⟨-, rfl⟩ | ⟨-, rfl⟩ | ⟨-, -, rfl⟩ | ⟨-, -, completed⟩ | ⟨-, -, -, rfl⟩ |
    ⟨-, u, stored, ⟨-, rfl⟩ | ⟨-, completed⟩⟩
  · left; split <;> rfl
  · exact .inl rfl
  iterate 2 exact .inr rfl
  iterate 2 exact .inl rfl
  · exact .inr rfl
  · have sized : (setPosition 0#8 (setSize b s)).errors = s.errors := rfl
    exact .inl ((complete_errors completed).trans sized)
  · exact .inl rfl
  · exact .inl (storePayload_errors stored)
  · exact .inl ((complete_errors completed).trans (storePayload_errors stored))

theorem consume_errors_le {b : Byte} {s t : State} (h : consume b s = .next t) :
    s.errors.toNat ≤ t.errors.toNat := by
  rcases consumeByte_errors (consume_next h).2 with he | he
  · rw [he, noteByte_errors]
  · rw [he]
    exact le_incSat s.errors

/-! ### `previousId` -/

/-- From `s` to `t` either nothing was delivered and `previousId` is as before, or something was and
`previousId` is the last one's id (10_state.md R24). -/
inductive PreviousIdFollows (s t : State) : Prop where
  | quiet (delivered : t.delivered = s.delivered) (previousId : t.previousId = s.previousId)
  | last (ds : List Delivery) (d : Delivery) (delivered : t.delivered = s.delivered ++ ds ++ [d])
      (previousId : t.previousId = d.message.id)

theorem PreviousIdFollows.trans {s t u : State} (h : PreviousIdFollows s t)
    (h' : PreviousIdFollows t u) : PreviousIdFollows s u := by
  cases h' with
  | quiet hd' hp' =>
    cases h with
    | quiet hd hp => exact .quiet (hd'.trans hd) (hp'.trans hp)
    | last ds d hd hp => exact .last ds d (hd'.trans hd) (hp'.trans hp)
  | last ds' d' hd' hp' =>
    cases h with
    | quiet hd hp => exact .last ds' d' (by rw [hd', hd]) hp'
    | last ds d hd hp => exact .last (ds ++ [d] ++ ds') d' (by rw [hd', hd]; simp) hp'

theorem OnlySends.previousIdFollows {s t : State} (h : OnlySends s t) : PreviousIdFollows s t :=
  .quiet h.delivered h.previousId

/-- COMPLETE writes `previousId` from the buffer that it delivers (41_decoder.md R136). -/
theorem complete_previousIdFollows {s t : State} (h : complete s = .next t) :
    PreviousIdFollows s t := by
  obtain ⟨k, sends⟩ := complete_onlySends h
  exact .last [] (delivery k (recordId s)) (by simp [sends.delivered]) sends.previousId

theorem consumeByte_previousIdFollows {b : Byte} {s t : State} (h : consumeByte b s = .next t) :
    PreviousIdFollows s t := by
  rcases consumeByte_next h with ⟨-, rfl⟩ | ⟨-, -, rfl⟩ | ⟨-, -, -, rfl⟩ | ⟨-, -, -, rfl⟩ |
    ⟨-, rfl⟩ | ⟨-, rfl⟩ | ⟨-, -, rfl⟩ | ⟨-, -, completed⟩ | ⟨-, -, -, rfl⟩ |
    ⟨-, u, stored, ⟨-, rfl⟩ | ⟨-, completed⟩⟩
  · split <;> exact .quiet rfl rfl
  iterate 6 exact .quiet rfl rfl
  · have sized : PreviousIdFollows s (setPosition 0#8 (setSize b s)) := .quiet rfl rfl
    exact sized.trans (complete_previousIdFollows completed)
  · exact .quiet rfl rfl
  · obtain ⟨-, rfl⟩ := storePayload_next stored
    exact .quiet rfl rfl
  · have kept : PreviousIdFollows s u := by
      obtain ⟨-, rfl⟩ := storePayload_next stored
      exact .quiet rfl rfl
    exact kept.trans (complete_previousIdFollows completed)

theorem consume_previousIdFollows {b : Byte} {s t : State} (h : consume b s = .next t) :
    PreviousIdFollows s t := by
  have noted : PreviousIdFollows s (noteByte b s) := .quiet rfl rfl
  exact noted.trans (consumeByte_previousIdFollows (consume_next h).2)

/-- Every instruction but INIT. -/
theorem exec_previousIdFollows {i : Instr} {s t : State} (hi : ∀ h, i ≠ .init h)
    (h : exec i s = .next t) : PreviousIdFollows s t := by
  cases exec_moves h with
  | init k hk _ => exact absurd hk (hi _)
  | silence _ _ ht => exact ht ▸ .quiet rfl rfl
  | send _ _ _ ht => exact (transmit_onlySends ht).previousIdFollows
  | receive _ _ _ ht =>
    exact consumeAll_keeps (fun _ => .quiet rfl rfl) .trans consume_previousIdFollows ht

end Sys2Proof.Machine

open Sys2Proof Sys2Proof.Machine

/-- Settles O46: the bounds are an invariant of every way a step moves the block. -/
theorem stepKeepsTheBounds : Obligations.StepKeepsTheBounds := fun _ _ hi h => step_inv h hi

/-- Settles O48: the bounds and the stream's invariant together are an invariant. -/
theorem stepKeepsTheStream : Obligations.StepKeepsTheStream :=
  fun _ _ hi hs h => (step_sound h ⟨hi, hs⟩).stream

/-- Settles O41: a CONSUME leaves `errors` or raises it by `inc_sat`, and a run of them is a chain of
such steps. -/
theorem errorsNeverDecrease : Obligations.ErrorsNeverDecrease := by
  refine ⟨fun s t i hi h => ?_, fun s t h => ?_, fun s t => complete_errors⟩
  · cases exec_moves h with
    | init k hk _ => exact absurd hk (hi _)
    | silence _ _ ht => exact ht ▸ Nat.le_refl _
    | send _ _ _ ht => rw [(transmit_onlySends ht).errors]
    | receive _ _ _ ht =>
      exact consumeAll_keeps (R := fun s t => s.errors.toNat ≤ t.errors.toNat)
        (fun _ => Nat.le_refl _) Nat.le_trans consume_errors_le ht
  · rw [exec_onSilence] at h
    split at h <;> cases h
    rfl

/-- Settles O43: a completion writes `previousId` from the message it delivers, and nothing else but
INIT writes it. -/
theorem previousIdFollowsDelivery : Obligations.PreviousIdFollowsDelivery := by
  intro s t i hi h
  cases exec_previousIdFollows hi h with
  | quiet hd hp => exact ⟨fun _ => hp, fun hne => absurd hd hne⟩
  | last ds d hd hp =>
    refine ⟨fun same => ?_, fun _ => ⟨d, by simp [hd], hp⟩⟩
    have := congrArg List.length (hd.symm.trans same)
    simp at this

/-- Settles O50: only the store of a payload byte faults, and the bounds put it inside the buffer. -/
theorem soundStatesNeverFault : Obligations.SoundStatesNeverFault := by
  intro s hi e h
  obtain ⟨i, bs, hx⟩ := step_fault h
  obtain ⟨run, hr⟩ := exec_fault hx
  exact consumeAll_ne_fault (hi.setRequests bs) e hr

/-- Settles O42: `inc_sat` is the smaller of one more and 255. -/
theorem errorCountSaturates : Obligations.ErrorCountSaturates := by
  intro e
  have he := incSat_toNat e
  exact ⟨fun h => by omega, fun h => BitVec.eq_of_toNat_eq (by omega)⟩

/-- Settles O47: reset rests in SYNC_1 with the position 0 and an empty buffer. -/
theorem resetMeetsTheBounds : Obligations.ResetMeetsTheBounds :=
  .of_not_payload (by simp [State.reset, State.resetWith]) (Nat.zero_le _) rfl

/-- Settles O49: nothing has been consumed or delivered. -/
theorem resetMeetsTheStream : Obligations.ResetMeetsTheStream :=
  .of_nothing_assembling rfl fun _ hd => nomatch hd
end

section
/-! PROOFS. The statements of 20_memory.md: the payload store (R51, R52), the outputs (R64, R70), and a
frame after a stray first sync byte (R72). -/

namespace Sys2Proof.Machine

/-! ### CONSUME, one equation per branch of 41_decoder.md R121 -/

section
variable {b : Byte} {s : State} (hc : s.callback ≠ none)
include hc

theorem consume_sync2_resync (hs : s.state = .sync2) (hne : s.sync1Val ≠ s.sync2Val) :
    consume s.sync1Val s =
      .next (goTo .sync2 (raiseFramingError .sync2 (noteByte s.sync1Val s))) := by
  simp [consume_bound _ hc, consumeByte, hs, hne]

theorem consume_sync2_match (hs : s.state = .sync2) :
    consume s.sync2Val s = .next (goTo .cmd (noteByte s.sync2Val s)) := by
  simp [consume_bound _ hc, consumeByte, hs]

theorem consume_cmd (hs : s.state = .cmd) :
    consume b s = .next (goTo .id (setCommand b (noteByte b s))) := by
  simp only [consume_bound b hc, consumeByte, noteByte_state, hs]

theorem consume_id (hs : s.state = .id) :
    consume b s = .next (goTo .payloadSize (setId b (noteByte b s))) := by
  simp only [consume_bound b hc, consumeByte, noteByte_state, hs]

theorem consume_size_zero (hs : s.state = .payloadSize) :
    consume 0#8 s = complete (setPosition 0#8 (setSize 0#8 (noteByte 0#8 s))) := by
  have hn : isOversize 0#8 = false := rfl
  simp [consume_bound _ hc, consumeByte, hs, hn]

theorem consume_size_ok (hs : s.state = .payloadSize) (hn : b.toNat ≤ 64) (hb : b ≠ 0#8) :
    consume b s = .next (goTo .payload (setPosition 0#8 (setSize b (noteByte b s)))) := by
  simp [consume_bound b hc, consumeByte, hs, (isOversize_false_iff b).mpr hn, hb]

theorem consume_payload (hs : s.state = .payload) :
    consume b s = andThen (storePayload b (noteByte b s)) fun t =>
      if t.payloadPosition = t.bufPayloadSize then complete t else .next t := by
  simp only [consume_bound b hc, consumeByte, noteByte_state, hs]

/-- Where the buffer has no element at the position, the byte has nowhere to go (20_memory.md R52). -/
theorem consume_payload_outside (hs : s.state = .payload) (hp : 64 ≤ s.payloadPosition.toNat) :
    consume b s = .fault (.payloadIndexOutOfRange s.payloadPosition.toNat) := by
  rw [consume_payload hc hs, storePayload_outside (s := noteByte b s) hp]
  rfl

end

/-! ### What a payload byte does to the buffer -/

/-- The store changes the element at the position and no other (20_memory.md R51). -/
theorem memRead_storePayload {b : Byte} {s u : State} (h : storePayload b s = .next u)
    (hw : Memory.wf s.payload = true) :
    memRead u.payload s.payloadPosition.toNat = b ∧
      ∀ a, a ≠ s.payloadPosition.toNat → memRead u.payload a = memRead s.payload a := by
  obtain ⟨-, rfl⟩ := storePayload_next h
  exact ⟨memRead_memWrite_same _ b hw, fun _ ha => memRead_memWrite_other _ b ha⟩

theorem OnlySends.payload {s t : State} (h : OnlySends s t) : t.payload = s.payload := by
  rw [h.frame]

theorem complete_payload {s t : State} (h : complete s = .next t) : t.payload = s.payload := by
  obtain ⟨k, sends⟩ := complete_onlySends h
  exact sends.payload

/-- A payload row stores its byte, and what RX.PAYLOAD.LAST does after that leaves the buffer alone. -/
theorem exec_rxPayload_stores {s t : State} {i : Instr} {d : Byte}
    (hi : i = .rxPayloadMore d ∨ i = .rxPayloadLast d) (h : exec i s = .next t) :
    ∃ u, storePayload d (noteByte d s) = .next u ∧ t.payload = u.payload := by
  rcases hi with rfl | rfl
  · obtain ⟨-, -, stored⟩ := onlyWhen_next (show execRxPayloadMore d s = .next t from h)
    exact ⟨t, stored, rfl⟩
  · obtain ⟨-, -, last⟩ := onlyWhen_next (show execRxPayloadLast d s = .next t from h)
    obtain ⟨u, stored, completed⟩ := andThen_next_iff.mp last
    exact ⟨u, stored, complete_payload completed⟩

/-! ### The outputs only grow -/

/-- Every output of `s` is an output of `t`, at the same place (00_scope.md R13, 20_memory.md R64). -/
structure OutputsExtend (s t : State) : Prop where
  delivered : s.delivered <+: t.delivered
  writes : s.writes <+: t.writes
  results : s.results <+: t.results
  received : s.received <+: t.received

theorem OutputsExtend.of_same {s t : State} (hd : s.delivered = t.delivered)
    (hw : s.writes = t.writes) (hr : s.results = t.results) (hb : s.received = t.received) :
    OutputsExtend s t :=
  ⟨hd ▸ List.prefix_rfl, hw ▸ List.prefix_rfl, hr ▸ List.prefix_rfl, hb ▸ List.prefix_rfl⟩

theorem OutputsExtend.trans {s t u : State} (h : OutputsExtend s t) (h' : OutputsExtend t u) :
    OutputsExtend s u :=
  ⟨h.delivered.trans h'.delivered, h.writes.trans h'.writes, h.results.trans h'.results,
    h.received.trans h'.received⟩

theorem OnlySends.outputsExtend {s t : State} (h : OnlySends s t) : OutputsExtend s t where
  delivered := h.delivered ▸ List.prefix_rfl
  writes := h.writes
  results := h.results
  received := by rw [h.frame]

/-- A completion adds one delivery, and then the sends of the handler. -/
theorem complete_outputsExtend {s t : State} (h : complete s = .next t) : OutputsExtend s t := by
  obtain ⟨k, sends⟩ := complete_onlySends h
  have recorded : OutputsExtend s (goTo .sync1 (recordDelivery k (recordId s))) :=
    ⟨List.prefix_append _ _, List.prefix_rfl, List.prefix_rfl, List.prefix_rfl⟩
  exact recorded.trans sends.outputsExtend

theorem storePayload_outputsExtend {b : Byte} {s u : State} (h : storePayload b s = .next u) :
    OutputsExtend s u := by
  obtain ⟨-, rfl⟩ := storePayload_next h
  exact .of_same rfl rfl rfl rfl

theorem consumeByte_outputsExtend {b : Byte} {s t : State} (h : consumeByte b s = .next t) :
    OutputsExtend s t := by
  rcases consumeByte_next h with ⟨-, rfl⟩ | ⟨-, -, rfl⟩ | ⟨-, -, -, rfl⟩ | ⟨-, -, -, rfl⟩ |
    ⟨-, rfl⟩ | ⟨-, rfl⟩ | ⟨-, -, rfl⟩ | ⟨-, -, completed⟩ | ⟨-, -, -, rfl⟩ |
    ⟨-, u, stored, ⟨-, rfl⟩ | ⟨-, completed⟩⟩
  · split <;> exact .of_same rfl rfl rfl rfl
  iterate 6 exact .of_same rfl rfl rfl rfl
  · have sized : OutputsExtend s (setPosition 0#8 (setSize b s)) := .of_same rfl rfl rfl rfl
    exact sized.trans (complete_outputsExtend completed)
  · exact .of_same rfl rfl rfl rfl
  · exact storePayload_outputsExtend stored
  · exact (storePayload_outputsExtend stored).trans (complete_outputsExtend completed)

theorem consume_outputsExtend {b : Byte} {s t : State} (h : consume b s = .next t) :
    OutputsExtend s t := by
  have noted : OutputsExtend s (noteByte b s) :=
    ⟨List.prefix_rfl, List.prefix_rfl, List.prefix_rfl, List.prefix_append _ _⟩
  exact noted.trans (consumeByte_outputsExtend (consume_next h).2)

/-- To have extended the outputs of `s` is an invariant of the steps that follow. -/
theorem step_outputsExtend {s t : State} (h : step s = .next t) : OutputsExtend s t :=
  step_keeps (P := OutputsExtend s)
    (fun before => before.trans (.of_same rfl rfl rfl rfl))
    (fun before => before.trans (.of_same rfl rfl rfl rfl))
    (fun before => before.trans (.of_same rfl rfl rfl rfl))
    (fun sends before => before.trans sends.outputsExtend)
    (fun consumed before => before.trans (consume_outputsExtend consumed))
    h (.of_same rfl rfl rfl rfl)

/-! ### A run of payload bytes -/

theorem consumeAll_cons_next {b : Byte} {s t : State} (bs : List Byte)
    (h : consume b s = .next t) : consumeAll (b :: bs) s = consumeAll bs t := by
  rw [consumeAll_cons, h, andThen_of_next]

/-- The buffer after the bytes `ds` were stored one by one from index `k` on (41_decoder.md R135). -/
def memWriteAll : Memory → Nat → List Byte → Memory
  | m, _, [] => m
  | m, k, d :: ds => memWriteAll (memWrite m k d) (k + 1) ds

/-- What is stored from the position on joins what the buffer held below it. -/
theorem memSlice_memWriteAll {m : Memory} {k : Nat} {ds : List Byte} (hw : Memory.wf m = true)
    (hk : k + ds.length ≤ 64) :
    memSlice (memWriteAll m k ds) (k + ds.length) = memSlice m k ++ ds := by
  induction ds generalizing m k with
  | nil => simp [memWriteAll]
  | cons d ds ih =>
    rw [List.length_cons] at hk ⊢
    rw [memWriteAll, show k + (ds.length + 1) = k + 1 + ds.length by omega,
      ih (memWrite_wf d (by omega) hw) (by omega), memSlice_memWrite_succ k d hw,
      List.append_assoc, List.singleton_append]

/-- The state after the bytes `ds` were taken in PAYLOAD, before any completion: they are stored from the
position on, the position has moved past them, and they have joined the stream. -/
def takePayload (ds : List Byte) (s : State) : State :=
  { s with
    payload := memWriteAll s.payload s.payloadPosition.toNat ds
    payloadPosition := s.payloadPosition + BitVec.ofNat 8 ds.length
    received := s.received ++ ds }

@[simp] theorem takePayload_errors (ds : List Byte) (s : State) :
    (takePayload ds s).errors = s.errors := rfl
@[simp] theorem takePayload_bufCommand (ds : List Byte) (s : State) :
    (takePayload ds s).bufCommand = s.bufCommand := rfl
@[simp] theorem takePayload_bufId (ds : List Byte) (s : State) :
    (takePayload ds s).bufId = s.bufId := rfl
@[simp] theorem takePayload_bufPayloadSize (ds : List Byte) (s : State) :
    (takePayload ds s).bufPayloadSize = s.bufPayloadSize := rfl
@[simp] theorem takePayload_payload (ds : List Byte) (s : State) :
    (takePayload ds s).payload = memWriteAll s.payload s.payloadPosition.toNat ds := rfl
@[simp] theorem takePayload_callback (ds : List Byte) (s : State) :
    (takePayload ds s).callback = s.callback := rfl
@[simp] theorem takePayload_delivered (ds : List Byte) (s : State) :
    (takePayload ds s).delivered = s.delivered := rfl
@[simp] theorem takePayload_reactions (ds : List Byte) (s : State) :
    (takePayload ds s).reactions = s.reactions := rfl

/-- One byte: the store of 41_decoder.md R135. -/
theorem storePayload_eq_takePayload {b : Byte} {s : State} (hp : s.payloadPosition.toNat < 64) :
    storePayload b (noteByte b s) = .next (takePayload [b] s) :=
  storePayload_inside (s := noteByte b s) hp

theorem takePayload_nil (s : State) : takePayload [] s = s := by
  simp [takePayload, memWriteAll]

theorem takePayload_position {b : Byte} {s : State} (hp : s.payloadPosition.toNat < 64) :
    (takePayload [b] s).payloadPosition.toNat = s.payloadPosition.toNat + 1 :=
  nextPosition_toNat (by omega)

theorem takePayload_cons {d : Byte} {ds : List Byte} {s : State}
    (hp : s.payloadPosition.toNat < 64) :
    takePayload (d :: ds) s = takePayload ds (takePayload [d] s) := by
  have position : s.payloadPosition + BitVec.ofNat 8 (ds.length + 1) =
      s.payloadPosition + 1#8 + BitVec.ofNat 8 ds.length := by
    rw [BitVec.add_assoc, Nat.add_comm, BitVec.ofNat_add]
  have next := takePayload_position (b := d) hp
  simp only [takePayload, memWriteAll, List.length_cons, List.length_nil] at next ⊢
  simp [next, position]

/-- The last payload byte completes the frame, the ones before it are stored (41_decoder.md R133,
R134). -/
theorem consumeAll_payload {d : Byte} {ds : List Byte} {s : State} (hc : s.callback ≠ none)
    (hs : s.state = .payload) (hn : s.bufPayloadSize.toNat ≤ 64)
    (hlen : s.payloadPosition.toNat + (ds.length + 1) = s.bufPayloadSize.toNat) :
    consumeAll (d :: ds) s = complete (takePayload (d :: ds) s) := by
  induction ds generalizing d s with
  | nil =>
    have hp : s.payloadPosition.toNat < 64 := by omega
    have full : (takePayload [d] s).payloadPosition = (takePayload [d] s).bufPayloadSize :=
      BitVec.eq_of_toNat_eq ((takePayload_position hp).trans hlen)
    rw [consumeAll_one, consume_payload hc hs, storePayload_eq_takePayload hp, andThen_of_next,
      if_pos full]
  | cons e ds ih =>
    rw [List.length_cons] at hlen
    have hp : s.payloadPosition.toNat < 64 := by omega
    have position := takePayload_position (b := d) hp
    have notFull :
        (takePayload [d] s).payloadPosition ≠ (takePayload [d] s).bufPayloadSize := by
      intro full
      rw [full, takePayload_bufPayloadSize] at position
      omega
    have stored : consume d s = .next (takePayload [d] s) := by
      rw [consume_payload hc hs, storePayload_eq_takePayload hp, andThen_of_next, if_neg notFull]
    rw [consumeAll_cons_next _ stored, takePayload_cons (ds := e :: ds) hp]
    exact ih (s := takePayload [d] s) hc hs hn (by rw [position, takePayload_bufPayloadSize]; omega)

/-! ### A frame after its sync pair -/

/-- The state after the COMMAND and ID bytes (41_decoder.md R128, R129). -/
def takeCommandId (c i : Byte) (s : State) : State :=
  goTo .payloadSize (setId i (noteByte i (goTo .id (setCommand c (noteByte c s)))))

/-- The state after the size byte of a legal frame, before any completion: the position is cleared, and
the sequencer rests where the completing byte finds it (41_decoder.md R130, R131). -/
def takeSize (n : Byte) (s : State) : State :=
  goTo (if n = 0#8 then .payloadSize else .payload) (setPosition 0#8 (setSize n (noteByte n s)))

/-- The state in which a legal frame taken from CMD on completes. -/
def takeFrame (c i n : Byte) (p : List Byte) (s : State) : State :=
  takePayload p (takeSize n (takeCommandId c i s))

/-- From PAYLOAD_SIZE on a legal frame is taken to its end, where it completes. -/
theorem consumeAll_frame_from_size {n : Byte} {p : List Byte} {s : State}
    (hc : s.callback ≠ none) (hs : s.state = .payloadSize) (hn : n.toNat ≤ 64)
    (hlen : p.length = n.toNat) :
    consumeAll (n :: p) s = complete (takePayload p (takeSize n s)) := by
  cases p with
  | nil =>
    obtain rfl : n = 0#8 := BitVec.eq_of_toNat_eq hlen.symm
    have stays : takeSize 0#8 s = setPosition 0#8 (setSize 0#8 (noteByte 0#8 s)) := by
      simp [takeSize, goTo, setPosition, setSize, noteByte, hs]
    rw [consumeAll_one, consume_size_zero hc hs, takePayload_nil, stays]
  | cons d ds =>
    have hz : n ≠ 0#8 := by
      rintro rfl
      cases hlen
    have sized : consume n s = .next (takeSize n s) := by
      rw [consume_size_ok hc hs hn hz, takeSize, if_neg hz]
    rw [consumeAll_cons_next _ sized]
    exact consumeAll_payload hc (if_neg hz) hn (by simpa [takeSize] using hlen)

/-- The bytes of a legal frame after its sync pair are taken, and then the frame completes, whatever the
handler does (41_decoder.md R141). -/
theorem consumeAll_frame_from_cmd {c i n : Byte} {p : List Byte} {s : State}
    (hc : s.callback ≠ none) (hs : s.state = .cmd) (hn : n.toNat ≤ 64)
    (hlen : p.length = n.toNat) :
    consumeAll (c :: i :: n :: p) s = complete (takeFrame c i n p s) := by
  have bound : (goTo .id (setCommand c (noteByte c s))).callback ≠ none := hc
  rw [consumeAll_cons_next _ (consume_cmd hc hs), consumeAll_cons_next _ (consume_id bound rfl)]
  exact consumeAll_frame_from_size (s := takeCommandId c i s) hc rfl hn hlen

/-- Taking a frame leaves alone what only a completion or an error changes. -/
theorem takeFrame_keeps (c i n : Byte) (p : List Byte) (s : State) :
    (takeFrame c i n p s).callback = s.callback ∧ (takeFrame c i n p s).reactions = s.reactions ∧
      (takeFrame c i n p s).delivered = s.delivered ∧ (takeFrame c i n p s).errors = s.errors := by
  simp [takeFrame, takeSize, takeCommandId]

/-- The message of a frame that was taken is the one that was sent. -/
theorem message_takeFrame {c i n : Byte} {p : List Byte} {s : State}
    (hw : Memory.wf s.payload = true) (hn : n.toNat ≤ 64) (hlen : p.length = n.toNat) :
    message (takeFrame c i n p s) = ⟨c, i, n, p⟩ := by
  have payload : memSlice (memWriteAll s.payload 0 p) n.toNat = p := by
    simpa [hlen] using memSlice_memWriteAll (k := 0) hw (by omega : 0 + p.length ≤ 64)
  simp [message, takeFrame, takeSize, takeCommandId, payload]

/-- A completion with a handler that makes no call: one delivery, of what the buffer holds. -/
theorem complete_quiet_delivers {s : State} {k : Handler} (hk : s.callback = some k)
    (hq : nextCalls s = []) :
    ∃ t d, complete s = .next t ∧ t.delivered = s.delivered ++ [d] ∧ d.message = message s ∧
      t.state = .sync1 ∧ t.errors = s.errors :=
  ⟨_, delivery k (recordId s), complete_quiet hk hq, rfl, rfl, rfl, rfl⟩

/-- From CMD on a legal frame is delivered as it was sent, and counts no error (41_decoder.md R141). -/
theorem frame_from_cmd_delivered {c i n : Byte} {p : List Byte} {s : State} {k : Handler}
    (hk : s.callback = some k) (hs : s.state = .cmd) (hw : Memory.wf s.payload = true)
    (hq : nextCalls s = []) (hn : n.toNat ≤ 64) (hlen : p.length = n.toNat) :
    ∃ t d, consumeAll (c :: i :: n :: p) s = .next t ∧ t.delivered = s.delivered ++ [d] ∧
      d.message = ⟨c, i, n, p⟩ ∧ t.state = .sync1 ∧ t.errors = s.errors := by
  have hc : s.callback ≠ none := by simp [hk]
  obtain ⟨callback, reactions, delivered, errors⟩ := takeFrame_keeps c i n p s
  have quiet : nextCalls (takeFrame c i n p s) = [] := by rwa [nextCalls, reactions]
  have completed := complete_quiet_delivers (callback.trans hk) quiet
  rwa [← consumeAll_frame_from_cmd hc hs hn hlen, message_takeFrame hw hn hlen, delivered,
    errors] at completed

/-- After a stray first sync byte, the first sync byte of a frame costs one error and keeps the decoder
listening, and the second starts the frame (41_decoder.md R124, R125). -/
theorem consumeAll_sync_after_stray {s : State} (hc : s.callback ≠ none) (hs : s.state = .sync2)
    (hne : s.sync1Val ≠ s.sync2Val) :
    ∃ u, consumeAll [s.sync1Val, s.sync2Val] s = .next u ∧ u.state = .cmd ∧
      u.errors = incSat s.errors ∧ u.callback = s.callback ∧ u.payload = s.payload ∧
      u.reactions = s.reactions ∧ u.delivered = s.delivered := by
  have bound : (goTo .sync2 (raiseFramingError .sync2 (noteByte s.sync1Val s))).callback ≠ none :=
    hc
  rw [consumeAll_cons_next _ (consume_sync2_resync hc hs hne), consumeAll_one]
  exact ⟨_, consume_sync2_match bound rfl, rfl, rfl, rfl, rfl, rfl, rfl⟩

end Sys2Proof.Machine

open Sys2Proof Sys2Proof.Machine

/-- Settles O17: the store writes the element at the position, and the completion that may follow leaves
the buffer alone. -/
theorem payloadStoreChangesOneByte : Obligations.PayloadStoreChangesOneByte := by
  intro s t i d hw hi h
  obtain ⟨u, stored, same⟩ := exec_rxPayload_stores hi h
  rw [same]
  exact memRead_storePayload (s := noteByte d s) stored hw

/-- Settles O36: the frame's first sync byte is the byte that costs the error and keeps the decoder
listening, and the rest of the frame is taken from there. -/
theorem strayFirstSyncCostsOneError : Obligations.StrayFirstSyncCostsOneError := by
  intro s k c i n p hk hs hne hw hq hn hlen
  have hc : s.callback ≠ none := by simp [hk]
  obtain ⟨u, synced, inCmd, counted, callback, payload, reactions, delivered⟩ :=
    consumeAll_sync_after_stray hc hs hne
  have quiet : nextCalls u = [] := by rwa [nextCalls, reactions]
  obtain ⟨t, d, taken, added, sent, resting, errors⟩ :=
    frame_from_cmd_delivered (c := c) (i := i) (callback.trans hk) inCmd (payload ▸ hw) quiet hn hlen
  refine ⟨t, d, ?_, delivered ▸ added, sent, resting, errors.trans counted⟩
  have parts := consumeAll_append [s.sync1Val, s.sync2Val] (c :: i :: n :: p) s
  rwa [synced, andThen_of_next, taken] at parts

/-- Settles O44: a step only appends to the outputs. -/
theorem outputsAreNeverRewritten : Obligations.OutputsAreNeverRewritten := by
  intro s t h
  obtain ⟨delivered, writes, results, received⟩ := step_outputsExtend h
  exact ⟨delivered, writes, results, received⟩

/-- Settles O18: CONSUME faults at the store, and where a payload row's condition holds it is that
CONSUME. -/
theorem storeOutsideTheBufferFaults : Obligations.StoreOutsideTheBufferFaults := by
  intro s d hc hs hp
  have outside := consume_payload_outside (b := d) hc hs hp
  exact ⟨outside, fun hm => (rxPayloadMore_eq_consume hc hs hm).trans outside,
    fun hl => (rxPayloadLast_eq_consume hc hs hl).trans outside⟩
end

section
/-! PROOFS. The statements of 30_encoding.md: the opcode map (R90, R91), decode after encode (R81,
R89, R90, R98), rows outside their condition, and the strobes that may come together (R97). -/

namespace Sys2Proof

open Sys2Proof.Machine

/-! ### The opcode map: its rows are the ones of the received byte whose condition holds -/

/-- The opcode map of 30_encoding.md R90 as a table: the row a byte takes, with its condition. -/
inductive RowTaken (c : Ctx) (b : Byte) : Instr → Prop where
  | sync1Match (hs : c.state = .sync1) (h1 : b = c.sync1Val) : RowTaken c b (.rxSync1Match b)
  | sync1Miss (hs : c.state = .sync1) (h1 : b ≠ c.sync1Val) : RowTaken c b (.rxSync1Miss b)
  | sync2Match (hs : c.state = .sync2) (h2 : b = c.sync2Val) : RowTaken c b (.rxSync2Match b)
  | sync2MissResync (hs : c.state = .sync2) (h2 : b ≠ c.sync2Val) (h1 : b = c.sync1Val) :
      RowTaken c b (.rxSync2MissResync b)
  | sync2MissDrop (hs : c.state = .sync2) (h2 : b ≠ c.sync2Val) (h1 : b ≠ c.sync1Val) :
      RowTaken c b (.rxSync2MissDrop b)
  | cmd (hs : c.state = .cmd) : RowTaken c b (.rxCmd b)
  | id (hs : c.state = .id) : RowTaken c b (.rxId b)
  | sizeZero (hs : c.state = .payloadSize) (hb : b = 0#8) : RowTaken c b .rxSizeZero
  | sizeOk (hs : c.state = .payloadSize) (hpos : 1 ≤ b.toNat) (hn : b.toNat ≤ 64) :
      RowTaken c b (.rxSizeOk b)
  | sizeOver (hs : c.state = .payloadSize) (hn : 65 ≤ b.toNat) : RowTaken c b (.rxSizeOver b)
  | payloadMore (hs : c.state = .payload)
      (hp : c.payloadPosition.toNat + 1 < c.payloadSize.toNat) : RowTaken c b (.rxPayloadMore b)
  | payloadLast (hs : c.state = .payload)
      (hp : c.payloadPosition.toNat + 1 = c.payloadSize.toNat) : RowTaken c b (.rxPayloadLast b)

theorem rxRow_taken {c : Ctx} {b : Byte} {i : Instr} (h : rxRow c b = some i) :
    RowTaken c b i := by
  cases hs : c.state <;> simp only [rxRow, hs] at h
  case sync1 =>
    split at h <;> cases h
    · exact .sync1Match hs ‹_›
    · exact .sync1Miss hs ‹_›
  case sync2 =>
    split at h
    · cases h
      exact .sync2Match hs ‹_›
    · split at h <;> cases h
      · exact .sync2MissResync hs ‹_› ‹_›
      · exact .sync2MissDrop hs ‹_› ‹_›
  case cmd =>
    cases h
    exact .cmd hs
  case id =>
    cases h
    exact .id hs
  case payloadSize =>
    split at h
    case isTrue hb =>
      cases h
      exact .sizeZero hs hb
    case isFalse hb =>
      have hpos : 1 ≤ b.toNat := Nat.one_le_iff_ne_zero.mpr fun h0 => hb (BitVec.eq_of_toNat_eq h0)
      split at h <;> cases h
      case isTrue ho => exact .sizeOver hs ((isOversize_iff b).mp ho)
      case isFalse ho =>
        exact .sizeOk hs hpos ((isOversize_false_iff b).mp (Bool.eq_false_of_not_eq_true ho))
  case payload =>
    split at h
    · cases h
      exact .payloadMore hs ‹_›
    · split at h <;> cases h
      exact .payloadLast hs ‹_›

/-- The row is one of that byte, and its condition holds. -/
theorem RowTaken.sound {c : Ctx} {b : Byte} {i : Instr} (h : RowTaken c b i) :
    encode i = [0x10#8, b] ∧ Instr.wellFormed c i = true := by
  cases h with
  | sizeZero hs hb => exact ⟨hb ▸ rfl, by simpa [Instr.wellFormed]⟩
  | cmd | id => exact ⟨rfl, by simpa [Instr.wellFormed]⟩
  | sync1Match hs hx | sync1Miss hs hx | sync2Match hs hx | sizeOver hs hx | payloadMore hs hx
  | payloadLast hs hx => exact ⟨rfl, by simpa [Instr.wellFormed, hs]⟩
  | sync2MissResync hs hx hy | sync2MissDrop hs hx hy | sizeOk hs hx hy =>
    exact ⟨rfl, by simpa [Instr.wellFormed, hs] using ⟨hx, hy⟩⟩

/-- The twelve conditions exclude one another: the map finds the row whose condition holds. -/
theorem rxRow_complete {c : Ctx} {b : Byte} {i : Instr} (he : encode i = [0x10#8, b])
    (hw : Instr.wellFormed c i = true) : rxRow c b = some i := by
  cases i with
  | rxSync1Match | rxSync1Miss | rxSync2Match | rxCmd | rxId | rxSizeZero | rxPayloadMore
  | rxPayloadLast =>
    cases he
    simp_all [Instr.wellFormed, rxRow]
  | rxSync2MissResync | rxSync2MissDrop =>
    cases he
    simp only [Instr.wellFormed, Bool.and_eq_true, decide_eq_true_eq] at hw
    obtain ⟨⟨hs, h2⟩, h1⟩ := hw
    simp only [rxRow, hs, if_neg h2]
    simp [h1]
  | rxSizeOk =>
    cases he
    simp only [Instr.wellFormed, Bool.and_eq_true, decide_eq_true_eq] at hw
    obtain ⟨⟨hs, h1⟩, hn⟩ := hw
    have hz : b ≠ 0#8 := by rintro rfl; cases h1
    simp [rxRow, hs, hz, (isOversize_false_iff b).mpr hn]
  | rxSizeOver =>
    cases he
    simp only [Instr.wellFormed, Bool.and_eq_true, decide_eq_true_eq] at hw
    obtain ⟨hs, hn⟩ := hw
    have hz : b ≠ 0#8 := by rintro rfl; cases hn
    simp [rxRow, hs, hz, (isOversize_iff b).mpr hn]
  | init o => cases o <;> cases he
  | consume | onSilence | transmitOk | transmitReject | frame | vocM2lLedOn | vocM2lLedOff
  | vocM2lProfileSet | vocM2lProfileNext | vocM2lProfilePrev | vocM2lIntensityNext
  | vocM2lIntensitySet | vocM2lAnimationSpeed | vocM2lMaskKey | vocM2lMaskRow | vocM2lMaskMono
  | vocM2lStatusQuery | vocM2lKeyDown | vocM2lKeyBlink | vocM2lIap | vocL2mDebug | vocL2mStatus =>
    cases he

/-- Only a position at or beyond the size has no row (30_encoding.md R91). -/
theorem rxRow_eq_none_iff {c : Ctx} {b : Byte} :
    rxRow c b = none ↔
      c.state = .payload ∧ c.payloadSize.toNat ≤ c.payloadPosition.toNat := by
  cases hs : c.state <;> simp only [rxRow, hs]
  case cmd | id => simp
  case payload => split_ifs <;> simp <;> omega
  all_goals split_ifs <;> simp

/-- In a sound state every byte has a row. -/
theorem Inv.rxRow_exists {s : State} (hi : Inv s) (b : Byte) : ∃ i, rxRow s.ctx b = some i := by
  refine Option.ne_none_iff_exists'.mp fun hnone => ?_
  obtain ⟨hs, hle⟩ := rxRow_eq_none_iff.mp hnone
  obtain ⟨-, -, hlt⟩ := hi.payloadBound hs
  exact Nat.not_lt.mpr hle hlt

end Sys2Proof

namespace Sys2Proof.Machine

/-! ### CONSUME is the row of the map -/

theorem consume_before_init {b : Byte} {s : State} (hs : s.callback = none) :
    consume b s = .refused .beforeInit :=
  whenInitialised_none hs _

/-- Before the first INIT no row but INIT has a step (70_reset_and_hazards.md R241). -/
theorem exec_before_init {i : Instr} {s : State} (hi : ∀ o, i ≠ .init o)
    (hs : s.callback = none) : exec i s = .refused .beforeInit := by
  cases i with
  | init o => exact absurd rfl (hi o)
  | onSilence => rw [exec_onSilence, if_pos hs]
  | transmitOk | transmitReject | rxSync1Match | rxSync1Miss | rxSync2Match | rxSync2MissResync
  | rxSync2MissDrop | rxCmd | rxId | rxSizeZero | rxSizeOk | rxSizeOver | rxPayloadMore
  | rxPayloadLast =>
    simp only [exec]
    exact onlyWhen_none hs _
  | frame =>
    simp only [exec, execFrame, List.cons_append, consumeAll_cons, consume_before_init hs,
      andThen_of_refused]
  | consume | vocM2lLedOn | vocM2lLedOff | vocM2lProfileSet | vocM2lProfileNext
  | vocM2lProfilePrev | vocM2lIntensityNext | vocM2lIntensitySet | vocM2lAnimationSpeed
  | vocM2lMaskKey | vocM2lMaskRow | vocM2lMaskMono | vocM2lStatusQuery | vocM2lKeyDown
  | vocM2lKeyBlink | vocM2lIap | vocL2mDebug | vocL2mStatus => exact consume_before_init hs

/-- The row the map gives is the CONSUME of its byte (41_decoder.md R120). -/
theorem exec_of_rowTaken {b : Byte} {i : Instr} {s : State} (h : RowTaken s.ctx b i)
    (hc : s.callback ≠ none) : exec i s = consume b s := by
  cases h with
  | sync1Match hs h1 => exact rxSync1Match_eq_consume hc hs h1
  | sync1Miss hs h1 => exact rxSync1Miss_eq_consume hc hs h1
  | sync2Match hs h2 => exact rxSync2Match_eq_consume hc hs h2
  | sync2MissResync hs h2 h1 => exact rxSync2MissResync_eq_consume hc hs h2 h1
  | sync2MissDrop hs h2 h1 => exact rxSync2MissDrop_eq_consume hc hs h2 h1
  | cmd hs => exact rxCmd_eq_consume hc hs
  | id hs => exact rxId_eq_consume hc hs
  | sizeZero hs hb => exact hb ▸ rxSizeZero_eq_consume hc hs
  | sizeOk hs hpos hn => exact rxSizeOk_eq_consume hc hs hpos hn
  | sizeOver hs hn => exact rxSizeOver_eq_consume hc hs hn
  | payloadMore hs hp => exact rxPayloadMore_eq_consume hc hs hp
  | payloadLast hs hp => exact rxPayloadLast_eq_consume hc hs hp

/-- Before the first INIT too, where both are refused. -/
theorem exec_of_rxRow {b : Byte} {i : Instr} {s : State} (h : rxRow s.ctx b = some i) :
    exec i s = consume b s := by
  have taken := rxRow_taken h
  by_cases hc : s.callback = none
  · have noInit : ∀ o, i ≠ .init o := by
      rintro o rfl
      cases taken
    rw [exec_before_init noInit hc, consume_before_init hc]
  · exact exec_of_rowTaken taken hc

end Sys2Proof.Machine

namespace Sys2Proof

open Sys2Proof.Machine

/-! ### Decode after encode, one lemma per shape of request -/

/-- A received byte is read back as the row whose condition holds. -/
theorem decode_encode_rxByte {c : Ctx} {b : Byte} {i : Instr} (rest : List Byte)
    (he : encode i = [0x10#8, b]) (hw : Instr.wellFormed c i = true) :
    decode c (encode i ++ rest) = .ok (i, rest) := by
  have row := rxRow_complete he hw
  rw [he]
  simp [decode, decodeRxByte, row]

/-- The payload operand's own length is sent, and lengths up to 255 are read back (log entry 20). -/
theorem decode_encodeTransmit {c : Ctx} {tx : TxCall} (rest : List Byte)
    (hlen : tx.payload.length ≤ 255) :
    decode c (encodeTransmit tx ++ rest) = .ok (txRow tx, rest) := by
  have sent : (BitVec.ofNat 8 tx.payload.length).toNat = tx.payload.length := by
    rw [BitVec.toNat_ofNat]
    omega
  simp [encodeTransmit, decode, decodeOperation, decodeTransmit, sent]

theorem txRow_ok {tx : TxCall} (hn : tx.payloadSize.toNat ≤ 64) :
    txRow tx = .transmitOk tx.command tx.payload tx.payloadSize tx.retries := by
  simp [txRow, (isOversize_false_iff _).mpr hn]

theorem txRow_reject {tx : TxCall} (hn : 65 ≤ tx.payloadSize.toNat) :
    txRow tx = .transmitReject tx.command tx.payload tx.payloadSize tx.retries := by
  simp [txRow, (isOversize_iff _).mpr hn]

/-- A legal frame's size byte tells where it ends (30_encoding.md R82). -/
theorem decode_encode_frame {c : Ctx} {sy1 sy2 command id n : Byte} {p : List Byte}
    (rest : List Byte) (hn : n.toNat ≤ 64) (hlen : p.length = n.toNat) :
    decode c (encode (.frame sy1 sy2 command id n p) ++ rest) =
      .ok (.frame sy1 sy2 command id n p, rest) := by
  have told : framePayloadLength n = p.length := by
    simp [framePayloadLength, (isOversize_false_iff n).mpr hn, hlen]
  simp [encode, decode, decodeFrame, told]

theorem decode_encode {c : Ctx} {i : Instr} (rest : List Byte)
    (hw : Instr.wellFormed c i = true) : decode c (encode i ++ rest) = .ok (i, rest) := by
  cases i with
  | init o =>
    cases o with
    | none => cases hw
    | some h => rfl
  | transmitOk command p n r =>
    simp only [Instr.wellFormed, Bool.and_eq_true, decide_eq_true_eq] at hw
    obtain ⟨⟨hn, -⟩, hlen⟩ := hw
    exact (decode_encodeTransmit rest hlen).trans (by rw [txRow_ok hn])
  | transmitReject command p n r =>
    simp only [Instr.wellFormed, Bool.and_eq_true, decide_eq_true_eq] at hw
    obtain ⟨hn, hlen⟩ := hw
    exact (decode_encodeTransmit rest hlen).trans (by rw [txRow_reject hn])
  | rxSync1Match | rxSync1Miss | rxSync2Match | rxSync2MissResync | rxSync2MissDrop | rxCmd | rxId
  | rxSizeZero | rxSizeOk | rxSizeOver | rxPayloadMore | rxPayloadLast =>
    exact decode_encode_rxByte rest rfl hw
  | frame =>
    simp only [Instr.wellFormed, Bool.and_eq_true, decide_eq_true_eq] at hw
    obtain ⟨⟨-, hn⟩, hlen⟩ := hw
    exact decode_encode_frame rest hn hlen
  | consume | onSilence | vocM2lLedOn | vocM2lLedOff | vocM2lProfileSet | vocM2lProfileNext
  | vocM2lProfilePrev | vocM2lIntensityNext | vocM2lIntensitySet | vocM2lAnimationSpeed
  | vocM2lMaskKey | vocM2lMaskRow | vocM2lMaskMono | vocM2lStatusQuery | vocM2lKeyDown
  | vocM2lKeyBlink | vocM2lIap | vocL2mDebug | vocL2mStatus => rfl

/-- The strobes of a byte and a TRANSMIT together begin no instruction's bytes: decoding them leaves
the TRANSMIT over, and decoding what was encoded leaves nothing. -/
theorem encode_ne_accompanied_byte {c : Ctx} {i : Instr} (bs : List Byte)
    (hw : Instr.wellFormed c i = true) : encode i ≠ 0x05#8 :: bs := by
  intro he
  have read := decode_encode [] hw
  rw [he] at read
  cases bs <;> simp [decode, decodeOperation] at read

end Sys2Proof

namespace Sys2Proof.Machine

/-! ### The step of an encoded request -/

/-- Requests that decode, and are no two TRANSMITs at once, are run. -/
theorem step_runs {s : State} {i : Instr} {rest : List Byte}
    (h : decode s.ctx s.requests = .ok (i, rest)) (ho : overlappingTransmits s = false) :
    step s = exec i (setRequests rest s) := by
  simp [step_of_decoded h, ho]

/-- Asking for one instruction alone is not asking for two TRANSMITs at once. -/
theorem overlappingTransmits_of_encoded {s : State} {i : Instr} {rest : List Byte}
    (hw : Instr.wellFormed s.ctx i = true) (hr : s.requests = encode i ++ rest) :
    overlappingTransmits s = false := by
  cases he : encode i with
  | nil =>
    have read := decode_encode [] hw
    simp [he, decode] at read
  | cons lead bs =>
    refine overlappingTransmits_of_lead (rest := bs ++ rest) (by rw [hr, he]; rfl) ?_
    rintro rfl
    exact encode_ne_accompanied_byte bs hw he

end Sys2Proof.Machine

open Sys2Proof Sys2Proof.Machine

/-- Settles O51: each shape of request is read back as the row it was written from. -/
theorem decodeReadsWhatEncodeWrites : Obligations.DecodeReadsWhatEncodeWrites :=
  fun _ _ rest hw => decode_encode rest hw

/-- Settles O20: the map's row exists by INV1, and it is the only row of the byte whose condition
holds. -/
theorem consumeIsTheRowOfTheMap : Obligations.ConsumeIsTheRowOfTheMap := by
  intro s b hi
  obtain ⟨i, row⟩ := hi.rxRow_exists b
  obtain ⟨he, hw⟩ := (rxRow_taken row).sound
  refine ⟨i, row, hw, he, (exec_of_rxRow row).symm, fun j hwj hej => ?_⟩
  exact Option.some.inj ((rxRow_complete hej hwj).symm.trans row)

/-- Settles O53: decode reads what encode wrote, and an encoded request is never two TRANSMITs at
once. -/
theorem encodedRequestsRun : Obligations.EncodedRequestsRun := by
  intro s i rest hw
  exact step_runs (s := { s with requests := encode i ++ rest }) (decode_encode rest hw)
    (overlappingTransmits_of_encoded hw rfl)

/-- Settles O19: each row is guarded by its own condition, under its own name. -/
theorem rowsOutsideTheirConditionAreRefused :
    Obligations.RowsOutsideTheirConditionAreRefused := by
  intro s b p n r hc
  refine ⟨?_, fun hn => ?_, fun hn => ?_⟩
  · simp only [List.forall_mem_cons]
    refine ⟨?_, ?_, ?_, ?_, ?_, ?_, ?_, ?_, ?_, ?_, ?_, ?_, List.forall_mem_nil _⟩
    all_goals
      intro outside
      simp only [exec]
      exact onlyWhen_false hc outside _
  · exact onlyWhen_false hc (by simp [(isOversize_iff n).mpr hn]) _
  · exact onlyWhen_false hc ((isOversize_false_iff n).mpr hn) _

/-- Settles O55: decoding the strobes leaves the TRANSMIT's own strobe as the next request. -/
theorem transmitMayAccompany : Obligations.TransmitMayAccompany := by
  intro s b rest
  refine ⟨fun alone => step_runs (s := { s with requests := 0x05#8 :: b :: rest }) rfl ?_,
    step_runs (s := { s with requests := 0x03#8 :: rest }) rfl
      (overlappingTransmits_of_lead rfl (by decide))⟩
  rw [overlappingTransmits_of_byte rfl]
  exact Bool.and_eq_false_iff.mpr alone

/-- Settles O57: each word's request is a few bytes, which the decoder reads by computation. -/
theorem tableWordsDecode : Obligations.TableWordsDecode :=
  ⟨rfl, rfl, rfl, rfl, rfl, rfl, rfl, rfl⟩
end

section
/-! PROOFS. The statements of 40_init.md: INIT's writes (R110, R111) and its refusal (R113). -/

namespace Sys2Proof.Machine

/-! ### INIT, one equation per kind of handler -/

/-- With a handler INIT makes its writes, in every state: it alone needs no INIT before it
(70_reset_and_hazards.md R241). -/
theorem exec_init_some (h : Handler) (s : State) :
    exec (.init (some h)) s = .next (initialise h s) := rfl

theorem exec_init_none (s : State) : exec (.init none) s = .refused .initWithoutHandler := rfl

end Sys2Proof.Machine

open Sys2Proof Sys2Proof.Machine

/-- Settles O1: INIT is `initialise`, whose definition is R110's six writes. -/
theorem initBindsAndClears : Obligations.InitBindsAndClears := by
  intro h s
  rw [exec_init_some, initialise]

/-- Settles O2: INIT tests its handler and no register. -/
theorem initWithoutHandlerIsRefused : Obligations.InitWithoutHandlerIsRefused :=
  exec_init_none
end

section
/-! PROOFS. The statements of 41_decoder.md: the twelve transitions (R122 to R134), CONSUME as a whole
(R120, R136 to R139, R147), what the handler calls meanwhile (R138), whole frames (R140, R142), and
how alignment is regained (R141). -/

namespace Sys2Proof.Machine

/-! ### CONSUME, the branches of 41_decoder.md R121 that have no equation yet -/

section
variable {b : Byte} {s : State} (hc : s.callback ≠ none)
include hc

theorem consume_sync1_match (hs : s.state = .sync1) :
    consume s.sync1Val s = .next (goTo .sync2 (noteByte s.sync1Val s)) := by
  simp [consume_bound _ hc, consumeByte, hs]

theorem consume_sync1_miss (hs : s.state = .sync1) (h1 : b ≠ s.sync1Val) :
    consume b s = .next (noteByte b s) := by
  simp [consume_bound b hc, consumeByte, hs, h1]

theorem consume_sync2_drop (hs : s.state = .sync2) (h2 : b ≠ s.sync2Val) (h1 : b ≠ s.sync1Val) :
    consume b s = .next (raiseFramingError .sync2 (noteByte b s)) := by
  simp [consume_bound b hc, consumeByte, hs, h2, h1]

theorem consume_size_over (hs : s.state = .payloadSize) (hn : 65 ≤ b.toNat) :
    consume b s = .next (raiseFramingError .oversize (setSize b (noteByte b s))) := by
  simp [consume_bound b hc, consumeByte, hs, (isOversize_iff b).mpr hn]

theorem consume_payload_more (hs : s.state = .payload)
    (hm : s.payloadPosition.toNat + 1 < s.bufPayloadSize.toNat)
    (hp : s.payloadPosition.toNat < 64) : consume b s = .next (takePayload [b] s) := by
  have notFull : (takePayload [b] s).payloadPosition ≠ (takePayload [b] s).bufPayloadSize := by
    intro full
    have position := takePayload_position (b := b) hp
    rw [full, takePayload_bufPayloadSize] at position
    omega
  rw [consume_payload hc hs, storePayload_eq_takePayload hp, andThen_of_next, if_neg notFull]

theorem consume_payload_last (hs : s.state = .payload)
    (hl : s.payloadPosition.toNat + 1 = s.bufPayloadSize.toNat)
    (hp : s.payloadPosition.toNat < 64) : consume b s = complete (takePayload [b] s) :=
  (consumeAll_one b s).symm.trans (consumeAll_payload hc hs (by omega) hl)

end

/-- A row that is the CONSUME of its byte has whatever outcome that CONSUME has. -/
theorem row_and_consume {i : Instr} {b : Byte} {s : State} {r : Result}
    (row : exec i s = consume b s) (outcome : consume b s = r) :
    exec i s = r ∧ exec (.consume b) s = r :=
  ⟨row.trans outcome, outcome⟩

/-! ### COMPLETE -/

/-- The handler's calls neither see nor change where the sequencer rests, so COMPLETE is the
delivery and the return to SYNC_1, and then the calls (41_decoder.md R138, R139). -/
theorem complete_eq_runCalls {s : State} {k : Handler} (hk : s.callback = some k) :
    complete s = runCalls (nextCalls s) (goTo .sync1 (recordDelivery k (recordId s))) := by
  have delivered : deliver (recordId s) = runCalls (nextCalls s) (recordDelivery k (recordId s)) := by
    simp [deliver, hk, nextCalls]
  rw [complete, delivered]
  exact (runCalls_commutes (g := goTo .sync1) (fun _ => rfl) (fun _ => rfl) (fun _ _ => rfl) _ _).symm

/-- COMPLETE with a handler that makes no call, every write shown (41_decoder.md R136, R137). -/
theorem complete_quiet_eq {s : State} {k : Handler} {m : Message} {st : DecState} {place : Nat}
    {seen : Byte}
    (hm : message s = m) (hk : s.callback = some k) (hq : nextCalls s = []) (hs : s.state = st)
    (hr : s.received.length = place) (hp : s.payloadPosition = seen) :
    complete s = .next { s with
      previousId := s.bufId, state := .sync1, reactions := s.reactions.tail,
      delivered := s.delivered ++
        [{ handler := k, message := m, position := place, seenState := st,
           seenPayloadPosition := seen, seenPreviousId := s.bufId, seenErrors := s.errors }] } := by
  subst hm hs hr hp
  exact complete_quiet hk hq

/-! ### A frame from its first sync byte on -/

/-- What the bytes `ds` stored from index `k` on leave in the buffer, element by element. -/
theorem memRead_memWriteAll {m : Memory} {k : Nat} {ds : List Byte} (hw : Memory.wf m = true)
    (hk : k + ds.length ≤ 64) (a : Nat) :
    memRead (memWriteAll m k ds) a =
      if k ≤ a ∧ a < k + ds.length then ds.getD (a - k) 0#8 else memRead m a := by
  induction ds generalizing m k with
  | nil => rw [memWriteAll, List.length_nil, if_neg (by omega)]
  | cons d ds ih =>
    rw [List.length_cons] at hk ⊢
    rw [memWriteAll, ih (memWrite_wf d (by omega) hw) (by omega)]
    rcases Nat.lt_trichotomy a k with below | rfl | above
    · rw [if_neg (by omega), if_neg (by omega), memRead_memWrite_other m d (by omega)]
    · rw [if_neg (by omega), if_pos (by omega), memRead_memWrite_same a d hw, Nat.sub_self,
        List.getD_cons_zero]
    · rw [memRead_memWrite_other m d (by omega), show a - k = a - (k + 1) + 1 by omega,
        List.getD_cons_succ]
      exact if_congr (by omega) rfl rfl

/-- The state after the two sync bytes (41_decoder.md R122, R124). -/
def takeSync (s : State) : State :=
  goTo .cmd (noteByte s.sync2Val (goTo .sync2 (noteByte s.sync1Val s)))

theorem consumeAll_sync {s : State} (hc : s.callback ≠ none) (hs : s.state = .sync1) :
    consumeAll [s.sync1Val, s.sync2Val] s = .next (takeSync s) := by
  have bound : (goTo .sync2 (noteByte s.sync1Val s)).callback ≠ none := hc
  rw [consumeAll_cons_next _ (consume_sync1_match hc hs), consumeAll_one]
  exact consume_sync2_match bound rfl

/-- A frame taken in SYNC_1 is what follows its sync pair, taken in CMD. -/
theorem exec_frame_from_sync1 {c i n : Byte} {p : List Byte} {s : State} (hc : s.callback ≠ none)
    (hs : s.state = .sync1) :
    exec (.frame s.sync1Val s.sync2Val c i n p) s =
      consumeAll (c :: i :: n :: p) (takeSync s) := by
  have parts := consumeAll_append [s.sync1Val, s.sync2Val] (c :: i :: n :: p) s
  rwa [consumeAll_sync hc hs, andThen_of_next] at parts

/-- The state in which a legal frame taken in SYNC_1 completes, every write shown. -/
theorem takeFrame_takeSync {c i n : Byte} {p : List Byte} (s : State) (hlen : p.length = n.toNat) :
    takeFrame c i n p (takeSync s) = { s with
      state := if n = 0#8 then .payloadSize else .payload,
      bufCommand := c, bufId := i, bufPayloadSize := n, payload := memWriteAll s.payload 0 p,
      payloadPosition := n,
      received := s.received ++ ([s.sync1Val, s.sync2Val, c, i, n] ++ p) } := by
  simp [takeFrame, takePayload, takeSize, takeCommandId, takeSync, goTo, setPosition, setSize, setId,
    setCommand, noteByte, hlen]

/-! ### What a CONSUME delivers, and what it leaves alone -/

/-- COMPLETE of a full buffer is one delivery (41_decoder.md R136, R139). -/
theorem complete_delivers {s t : State} (h : complete s = .next t)
    (full : s.payloadPosition = s.bufPayloadSize) :
    ∃ d, t.delivered = s.delivered ++ [d] ∧ t.state = .sync1 ∧ t.previousId = d.message.id ∧
      d.seenPayloadPosition = d.message.payloadSize ∧ d.position = s.received.length := by
  obtain ⟨k, sends⟩ := complete_onlySends h
  have resting : t.state = .sync1 := by
    rw [sends.frame]
    rfl
  exact ⟨delivery k (recordId s), sends.delivered, resting, sends.previousId, full, rfl⟩

/-- The store of a payload byte delivers nothing, adds nothing to the stream and uses up no
reaction. -/
theorem storePayload_traces {b : Byte} {s u : State} (h : storePayload b s = .next u) :
    u.delivered = s.delivered ∧ u.received = s.received ∧ u.reactions = s.reactions := by
  obtain ⟨-, rfl⟩ := storePayload_next h
  exact ⟨rfl, rfl, rfl⟩

theorem consumeByte_delivers {b : Byte} {s t : State} (h : consumeByte b s = .next t) :
    t.delivered = s.delivered ∨
      ∃ d, t.delivered = s.delivered ++ [d] ∧ t.state = .sync1 ∧ t.previousId = d.message.id ∧
        d.seenPayloadPosition = d.message.payloadSize ∧ d.position = s.received.length := by
  rcases consumeByte_next h with ⟨-, rfl⟩ | ⟨-, -, rfl⟩ | ⟨-, -, -, rfl⟩ | ⟨-, -, -, rfl⟩ |
    ⟨-, rfl⟩ | ⟨-, rfl⟩ | ⟨-, -, rfl⟩ | ⟨-, rfl, completed⟩ | ⟨-, -, -, rfl⟩ |
    ⟨-, u, stored, ⟨-, rfl⟩ | ⟨full, completed⟩⟩
  · left; split <;> rfl
  iterate 6 exact .inl rfl
  · exact .inr (complete_delivers (s := setPosition 0#8 (setSize 0#8 s)) completed rfl)
  · exact .inl rfl
  · obtain ⟨delivered, -, -⟩ := storePayload_traces stored
    exact .inl delivered
  · obtain ⟨delivered, received, -⟩ := storePayload_traces stored
    exact .inr (delivered ▸ received ▸ complete_delivers completed full)

/-- The encoder's register and outputs and the coming requests are the same in both states. -/
structure SameEncoder (s t : State) : Prop where
  txId : t.txId = s.txId
  writes : t.writes = s.writes
  results : t.results = s.results
  requests : t.requests = s.requests

theorem SameEncoder.trans {s t u : State} (h : SameEncoder s t) (h' : SameEncoder t u) :
    SameEncoder s u :=
  ⟨h'.txId.trans h.txId, h'.writes.trans h.writes, h'.results.trans h.results,
    h'.requests.trans h.requests⟩

theorem complete_quiet_sameEncoder {s t : State} (h : complete s = .next t)
    (hq : nextCalls s = []) : SameEncoder s t := by
  obtain ⟨k, -, hk, -, -⟩ := complete_next h
  cases (complete_quiet hk hq).symm.trans h
  exact ⟨rfl, rfl, rfl, rfl⟩

/-- Only a handler's call touches the encoder in a CONSUME (43_encoder.md R176). -/
theorem consumeByte_quiet_sameEncoder {b : Byte} {s t : State} (h : consumeByte b s = .next t)
    (hq : nextCalls s = []) : SameEncoder s t := by
  rcases consumeByte_next h with ⟨-, rfl⟩ | ⟨-, -, rfl⟩ | ⟨-, -, -, rfl⟩ | ⟨-, -, -, rfl⟩ |
    ⟨-, rfl⟩ | ⟨-, rfl⟩ | ⟨-, -, rfl⟩ | ⟨-, -, completed⟩ | ⟨-, -, -, rfl⟩ |
    ⟨-, u, stored, more⟩
  · split <;> exact ⟨rfl, rfl, rfl, rfl⟩
  iterate 6 exact ⟨rfl, rfl, rfl, rfl⟩
  · have sized : SameEncoder s (setPosition 0#8 (setSize b s)) := ⟨rfl, rfl, rfl, rfl⟩
    exact sized.trans (complete_quiet_sameEncoder completed hq)
  · exact ⟨rfl, rfl, rfl, rfl⟩
  · obtain ⟨kept, quiet⟩ : SameEncoder s u ∧ nextCalls u = [] := by
      obtain ⟨-, rfl⟩ := storePayload_next stored
      exact ⟨⟨rfl, rfl, rfl, rfl⟩, hq⟩
    rcases more with ⟨-, rfl⟩ | ⟨-, completed⟩
    · exact kept
    · exact kept.trans (complete_quiet_sameEncoder completed quiet)

/-- A CONSUME uses up at most one of the handler's coming reactions (log entry 9). -/
theorem consumeByte_reactions {b : Byte} {s t : State} (h : consumeByte b s = .next t) :
    t.reactions = s.reactions ∨ t.reactions = s.reactions.tail := by
  have used {u : State} (completed : complete u = .next t) : t.reactions = u.reactions.tail := by
    obtain ⟨k, sends⟩ := complete_onlySends completed
    rw [sends.frame]
    rfl
  rcases consumeByte_next h with ⟨-, rfl⟩ | ⟨-, -, rfl⟩ | ⟨-, -, -, rfl⟩ | ⟨-, -, -, rfl⟩ |
    ⟨-, rfl⟩ | ⟨-, rfl⟩ | ⟨-, -, rfl⟩ | ⟨-, -, completed⟩ | ⟨-, -, -, rfl⟩ |
    ⟨-, u, stored, ⟨-, rfl⟩ | ⟨-, completed⟩⟩
  · left; split <;> rfl
  iterate 6 exact .inl rfl
  · exact .inr (used (u := setPosition 0#8 (setSize b s)) completed)
  · exact .inl rfl
  · obtain ⟨-, -, reactions⟩ := storePayload_traces stored
    exact .inl reactions
  · obtain ⟨-, -, reactions⟩ := storePayload_traces stored
    exact .inr (reactions ▸ used completed)

/-! ### The handler's calls -/

/-- A call that the contract allows has a step, in every state (41_decoder.md R138). -/
theorem runCall_allowed {c : HandlerCall} (h : allowedCall c = true) (s : State) :
    ∃ t, runCall c s = .next t := by
  cases c with
  | transmit tx =>
    cases ho : isOversize tx.payloadSize with
    | true => exact ⟨rejectCall s, by simp [runCall, transmit, ho]⟩
    | false =>
      have supplied : payloadSupplied tx = true := by simpa [allowedCall, ho] using h
      exact ⟨acceptCall tx s, by simp [runCall, transmit, ho, supplied]⟩
  | reportStatus v r => exact ⟨_, transmit_statusCall v r s s⟩
  | consume | onSilence | init | writeBuffer => cases h

theorem runCalls_allowed {cs : List HandlerCall} (h : ∀ c ∈ cs, allowedCall c = true) (s : State) :
    ∃ t, runCalls cs s = .next t := by
  induction cs generalizing s with
  | nil => exact ⟨s, rfl⟩
  | cons c cs ih =>
    obtain ⟨now, later⟩ := List.forall_mem_cons.mp h
    obtain ⟨u, hu⟩ := runCall_allowed now s
    rw [runCalls, hu]
    exact ih later u

theorem runCalls_append (cs cs' : List HandlerCall) (s : State) :
    runCalls (cs ++ cs') s = andThen (runCalls cs s) (runCalls cs') := by
  induction cs generalizing s with
  | nil => rfl
  | cons c cs ih =>
    rw [List.cons_append, runCalls, runCalls, andThen_assoc]
    exact congrArg (andThen (runCall c s)) (funext ih)

/-- A call that is refused in every state is refused after any allowed ones, and nothing after it is
done. -/
theorem runCalls_refused {pre cs : List HandlerCall} {c : HandlerCall} {e : Refusal}
    (hpre : ∀ c ∈ pre, allowedCall c = true) (hc : ∀ u, runCall c u = .refused e) (s : State) :
    runCalls (pre ++ c :: cs) s = .refused e := by
  obtain ⟨u, hu⟩ := runCalls_allowed hpre s
  rw [runCalls_append, hu, andThen_of_next, runCalls, hc u, andThen_of_refused]

/-- A TRANSMIT with too short a payload operand is refused in every state (43_encoder.md R172). -/
theorem runCall_shortPayload {tx : TxCall} (hn : tx.payloadSize.toNat ≤ 64)
    (hp : tx.payload.length < tx.payloadSize.toNat) (s : State) :
    runCall (.transmit tx) s = .refused .shortPayload := by
  have short : payloadSupplied tx = false := by simpa [payloadSupplied] using hp
  simp [runCall, transmit, (isOversize_false_iff _).mpr hn, short]

/-- The handler's coming reactions, replaced. -/
def setReactions (rs : List (List HandlerCall)) (s : State) : State := { s with reactions := rs }

/-- What a completion does with the handler's calls taken out of it and made afterwards. -/
theorem complete_then_calls {s : State} (hc : s.callback ≠ none) :
    complete s = andThen (complete (setReactions [] s)) fun t =>
      runCalls (nextCalls s) (setReactions s.reactions.tail t) := by
  obtain ⟨k, hk⟩ := Option.ne_none_iff_exists'.mp hc
  have quiet : complete (setReactions [] s) =
      .next (goTo .sync1 (recordDelivery k (recordId (setReactions [] s)))) := complete_quiet hk rfl
  rw [quiet, andThen_of_next, complete_eq_runCalls hk]
  rfl

/-- A row that completes a frame, and the CONSUME that it is, end with the handler's calls. -/
theorem exec_completing {s : State} {i : Instr} {d : Byte} (hc : s.callback ≠ none)
    (hi : (s.state = .payloadSize ∧ (i = .rxSizeZero ∨ i = .consume 0#8)) ∨
      (s.state = .payload ∧ s.payloadPosition.toNat + 1 = s.bufPayloadSize.toNat ∧
        s.payloadPosition.toNat < 64 ∧ (i = .rxPayloadLast d ∨ i = .consume d))) :
    ∃ u, exec i s = runCalls (nextCalls s) u := by
  obtain ⟨k, hk⟩ := Option.ne_none_iff_exists'.mp hc
  rcases hi with ⟨hs, hi⟩ | ⟨hs, hl, hp, hi⟩
  · obtain ⟨row, consumed⟩ := row_and_consume (rxSizeZero_eq_consume hc hs)
      ((consume_size_zero hc hs).trans (complete_eq_runCalls hk))
    rcases hi with rfl | rfl
    · exact ⟨_, row⟩
    · exact ⟨_, consumed⟩
  · obtain ⟨row, consumed⟩ := row_and_consume (rxPayloadLast_eq_consume (d := d) hc hs hl)
      ((consume_payload_last hc hs hl hp).trans (complete_eq_runCalls hk))
    rcases hi with rfl | rfl
    · exact ⟨_, row⟩
    · exact ⟨_, consumed⟩

end Sys2Proof.Machine

namespace Sys2Proof

open Sys2Proof.Machine

/-! ### Every byte has a step, and the bytes to SYNC_1 are counted -/

/-- What makes every CONSUME answer: the bounds, a bound handler, and its duties (60_exceptions.md
R228). -/
structure Receptive (s : State) : Prop where
  bounds : Inv s
  bound : s.callback ≠ none
  dutiful : HandlerDutiful s

theorem HandlerDutiful.nextCalls_allowed {s : State} (h : HandlerDutiful s) :
    ∀ c ∈ nextCalls s, allowedCall c = true := by
  unfold nextCalls
  cases hr : s.reactions with
  | nil => simp
  | cons calls rest => exact h calls (by simp [hr])

theorem complete_dutiful {s : State} (hc : s.callback ≠ none) (hd : HandlerDutiful s) :
    ∃ t, complete s = .next t := by
  obtain ⟨k, hk⟩ := Option.ne_none_iff_exists'.mp hc
  rw [complete_eq_runCalls hk]
  exact runCalls_allowed hd.nextCalls_allowed _

/-- CONSUME answers for every byte (41_decoder.md R120). -/
theorem Receptive.consume_answers {s : State} (h : Receptive s) (b : Byte) :
    ∃ t, consume b s = .next t := by
  obtain ⟨bounds, hc, dutiful⟩ := h
  rw [consume_bound b hc]
  cases hs : s.state <;> simp only [consumeByte, noteByte_state, hs]
  case sync1 | sync2 | cmd | id => exact ⟨_, rfl⟩
  case payloadSize =>
    split
    · exact ⟨_, rfl⟩
    · split
      · exact complete_dutiful hc dutiful
      · exact ⟨_, rfl⟩
  case payload =>
    obtain ⟨-, hn, hlt⟩ := bounds.payloadBound hs
    rw [storePayload_eq_takePayload (by omega), andThen_of_next]
    split
    · exact complete_dutiful hc dutiful
    · exact ⟨_, rfl⟩

theorem Receptive.of_consume {b : Byte} {s t : State} (hs : Receptive s)
    (h : consume b s = .next t) : Receptive t := by
  refine ⟨consume_inv h hs.bounds, (consume_sameParameters h).callback ▸ hs.bound, ?_⟩
  rcases consumeByte_reactions (consume_next h).2 with reactions | reactions
  · exact fun calls hm => hs.dutiful calls (reactions ▸ hm)
  · exact fun calls hm => hs.dutiful calls (List.mem_of_mem_tail (reactions ▸ hm))

/-- How many bytes bring the decoder back to SYNC_1 at the latest; 0 where it listens for a sync
byte (41_decoder.md R141). -/
def bytesToSync (s : State) : Nat :=
  match s.state with
  | .sync1 => 0
  | .sync2 => 0
  | .cmd => 67
  | .id => 66
  | .payloadSize => 65
  | .payload => s.bufPayloadSize.toNat - s.payloadPosition.toNat

/-- A completion returns to SYNC_1. -/
theorem complete_state {s t : State} (h : complete s = .next t) : t.state = .sync1 := by
  obtain ⟨k, u, -, -, rfl⟩ := complete_next h
  rfl

/-- Inside a frame every byte returns to SYNC_1 or brings the decoder nearer to it. -/
theorem consumeByte_nearer {b : Byte} {s t : State} (h : consumeByte b s = .next t) (hi : Inv s)
    (inside : 0 < bytesToSync s) :
    t.state = .sync1 ∨ 0 < bytesToSync t ∧ bytesToSync t < bytesToSync s := by
  rcases consumeByte_next h with ⟨hs, -⟩ | ⟨hs, -⟩ | ⟨hs, -⟩ | ⟨hs, -⟩ |
    ⟨hs, rfl⟩ | ⟨hs, rfl⟩ | ⟨-, -, rfl⟩ | ⟨-, -, completed⟩ | ⟨hs, hn, h0, rfl⟩ |
    ⟨hs, u, stored, more⟩
  iterate 4 simp [bytesToSync, hs] at inside
  iterate 2 exact .inr (by simp [bytesToSync, hs])
  · exact .inl rfl
  · exact .inl (complete_state completed)
  · have hn := (isOversize_false_iff b).mp hn
    have hpos : b.toNat ≠ 0 := fun hb => h0 (BitVec.eq_of_toNat_eq hb)
    right
    simp only [bytesToSync, hs, goTo_state, goTo_bufPayloadSize, goTo_payloadPosition,
      setPosition_bufPayloadSize, setPosition_payloadPosition, setSize_bufPayloadSize,
      BitVec.toNat_ofNat]
    omega
  · rcases more with ⟨hne, rfl⟩ | ⟨-, completed⟩
    · have hp := storePayload_position stored
      obtain ⟨hle, -⟩ := storePayload_le_size hi hs stored
      have hlt := Nat.lt_of_le_of_ne hle fun he => hne (BitVec.eq_of_toNat_eq he)
      obtain ⟨-, rfl⟩ := storePayload_next stored
      right
      simp only [bytesToSync, setPosition_state, setPayload_state, hs, setPosition_bufPayloadSize,
        setPayload_bufPayloadSize] at hp hlt ⊢
      omega
    · exact .inl (complete_state completed)

/-- Inside a frame, as many bytes as the count says lead through SYNC_1, whatever they are. -/
theorem Receptive.regains_sync {s : State} {bs : List Byte} (hs : Receptive s)
    (inside : 0 < bytesToSync s) (enough : bytesToSync s ≤ bs.length) :
    ∃ k t, 1 ≤ k ∧ k ≤ bs.length ∧ consumeAll (bs.take k) s = .next t ∧ t.state = .sync1 := by
  induction bs generalizing s with
  | nil => exact absurd enough (Nat.not_le.mpr inside)
  | cons b bs ih =>
    obtain ⟨u, hu⟩ := hs.consume_answers b
    rcases consumeByte_nearer (s := noteByte b s) (consume_next hu).2 (hs.bounds.noteByte b) inside
      with regained | ⟨stillInside, nearer⟩
    · exact ⟨1, u, Nat.le_refl 1, by simp, (consumeAll_one b s).trans hu, regained⟩
    · have nearer : bytesToSync u < bytesToSync s := nearer
      rw [List.length_cons] at enough ⊢
      obtain ⟨k, t, -, hk, taken, regained⟩ := ih (hs.of_consume hu) stillInside (by omega)
      exact ⟨k + 1, t, by omega, by omega, (consumeAll_cons_next _ hu).trans taken, regained⟩

end Sys2Proof

open Sys2Proof Sys2Proof.Machine

/-- Settles O34: the sync pair and the rest of the frame are taken up to where it completes, and the
completion delivers what was stored. -/
theorem wellFormedFrameIsDelivered : Obligations.WellFormedFrameIsDelivered := by
  intro s k c i n p hk hs hw hq hn hlen
  have hc : s.callback ≠ none := by simp [hk]
  refine ⟨memWriteAll s.payload 0 p, fun a => ?_, ?_⟩
  · simpa [hlen] using memRead_memWriteAll (k := 0) hw (by omega : 0 + p.length ≤ 64) a
  · have taken : exec (.frame s.sync1Val s.sync2Val c i n p) s =
        complete (takeFrame c i n p (takeSync s)) :=
      (exec_frame_from_sync1 hc hs).trans (consumeAll_frame_from_cmd hc rfl hn hlen)
    have sent := message_takeFrame (c := c) (i := i) (s := takeSync s) hw hn hlen
    rw [takeFrame_takeSync s hlen] at taken sent
    have place : (s.received ++ ([s.sync1Val, s.sync2Val, c, i, n] ++ p)).length =
        s.received.length + 5 + n.toNat := by
      simp [hlen]
      omega
    rw [taken, complete_quiet_eq sent hk hq rfl place rfl, ← hs]

/-- Settles O21: the bounds put the store inside the buffer and the duties give each of the
handler's calls a step, and a CONSUME keeps both. -/
theorem consumeAlwaysCompletes : Obligations.ConsumeAlwaysCompletes := by
  intro s b hi hc hd
  have receptive : Receptive s := ⟨hi, hc, hd⟩
  obtain ⟨t, ht⟩ := receptive.consume_answers b
  obtain ⟨bounds, -, dutiful⟩ := receptive.of_consume ht
  exact ⟨t, ht, bounds, dutiful, (consume_sameParameters ht).callback⟩

/-- Settles O22: only a completion delivers, and in both rows that complete the position has reached
the size. -/
theorem consumeDeliversAtMostOnce : Obligations.ConsumeDeliversAtMostOnce := by
  intro s t b h
  simpa using consumeByte_delivers (consume_next h).2

/-- Settles O23: CONSUME's own writes are the decoder's, and a completion without calls sends
nothing. -/
theorem consumeLeavesTheEncoder : Obligations.ConsumeLeavesTheEncoder := by
  intro s t b hq h
  obtain ⟨txId, writes, results, requests⟩ :=
    consumeByte_quiet_sameEncoder (s := noteByte b s) (consume_next h).2 hq
  obtain ⟨sync1Val, sync2Val, callback⟩ := consume_sameParameters h
  exact ⟨txId, writes, results, callback, sync1Val, sync2Val, requests⟩

/-- Settles O24: the byte is taken alike with any reactions, and a completion is the delivery and
then the calls. -/
theorem callbackCallsActAfterTheByte : Obligations.CallbackCallsActAfterTheByte := by
  intro s b completing
  change consume b s = andThen (consume b (setReactions [] s)) fun t =>
    runCalls (nextCalls s) (setReactions s.reactions.tail t)
  by_cases hc : s.callback = none
  · have hc' : (setReactions [] s).callback = none := hc
    rw [consume_before_init hc, consume_before_init hc', andThen_of_refused]
  have hc' : (setReactions [] s).callback ≠ none := hc
  rcases completing with ⟨hs, rfl⟩ | ⟨hs, hl⟩
  · rw [consume_size_zero hc hs, consume_size_zero hc' hs]
    exact complete_then_calls hc
  · by_cases hp : s.payloadPosition.toNat < 64
    · rw [consume_payload_last hc hs hl hp, consume_payload_last hc' hs hl hp]
      exact complete_then_calls hc
    · rw [consume_payload_outside hc hs (by omega),
        consume_payload_outside (s := setReactions [] s) hc hs (Nat.not_lt.mp hp)]
      rfl

/-- Settles O25: the outcome of a completing row is the outcome of the handler's calls, and the
first disallowed one refuses. -/
theorem reentrantCallsAreRefused : Obligations.ReentrantCallsAreRefused := by
  intro s d b k h tx pre cs i hc completing allowed
  obtain ⟨u, ends⟩ := exec_completing hc completing
  have refused {c : HandlerCall} {e : Refusal} (hr : ∀ v, runCall c v = .refused e)
      (calls : nextCalls s = pre ++ c :: cs) : exec i s = .refused e := by
    rw [ends, calls]
    exact runCalls_refused allowed hr u
  exact ⟨refused fun _ => rfl, refused fun _ => rfl, refused fun _ => rfl, refused fun _ => rfl,
    fun calls hn hp => refused (runCall_shortPayload hn hp) calls⟩

/-- Settles O35: the header is taken up to the size byte, which is the error. -/
theorem oversizeFrameIsDiscarded : Obligations.OversizeFrameIsDiscarded := by
  intro s c i n hc hs hn
  have bound : (takeCommandId c i (takeSync s)).callback ≠ none := hc
  have header : consumeAll [c, i, n] (takeSync s) =
      consumeAll [n] (takeCommandId c i (takeSync s)) := by
    rw [consumeAll_cons_next _ (consume_cmd (s := takeSync s) hc rfl)]
    exact consumeAll_cons_next _ (consume_id (s := goTo .id _) hc rfl)
  rw [exec_frame_from_sync1 hc hs, header, consumeAll_one, consume_size_over bound rfl hn]
  simp [takeCommandId, takeSync, goTo, setSize, setId, setCommand, noteByte, raiseFramingError, incSat,
    errMax, hs]

/-- Settles O39: in PAYLOAD the bound is the number of bytes still missing, and every byte lowers
the bound or returns to SYNC_1. -/
theorem syncIsRegained : Obligations.SyncIsRegained := by
  intro s bound bs hi hc hd start hlen
  subst hlen
  obtain ⟨inside, enough⟩ : 0 < bytesToSync s ∧ bytesToSync s ≤ bs.length := by
    simp only [List.mem_cons, List.not_mem_nil, or_false, Prod.mk.injEq] at start
    rcases start with ⟨hs, hlen⟩ | ⟨hs, hlen⟩ | ⟨hs, hlen⟩ | ⟨hs, hlen⟩
    iterate 3 simp [bytesToSync, hs, hlen]
    obtain ⟨-, hn, hlt⟩ := hi.payloadBound hs
    simp only [bytesToSync, hs]
    omega
  exact Receptive.regains_sync ⟨hi, hc, hd⟩ inside enough

/-- Settles O5: R122 read off the branch of CONSUME that the row is. -/
theorem sync1MatchAdvances : Obligations.Sync1MatchAdvances := by
  rintro s _ hc hs rfl
  exact row_and_consume (rxSync1Match_eq_consume hc hs rfl) (consume_sync1_match hc hs)

/-- Settles O6: the byte joins the stream and the branch writes no register. -/
theorem sync1MissChangesNothing : Obligations.Sync1MissChangesNothing := by
  intro s b hc hs h1
  exact row_and_consume (rxSync1Miss_eq_consume hc hs h1) (consume_sync1_miss hc hs h1)

/-- Settles O7: the match is tested before the re-test of R127. -/
theorem sync2MatchAdvances : Obligations.Sync2MatchAdvances := by
  rintro s _ hc hs rfl
  exact row_and_consume (rxSync2Match_eq_consume hc hs rfl) (consume_sync2_match hc hs)

/-- Settles O8: the error returns to SYNC_1, and the byte is taken from there. -/
theorem sync2MissResyncs : Obligations.Sync2MissResyncs := by
  rintro s _ hc hs h2 rfl
  exact row_and_consume (rxSync2MissResync_eq_consume hc hs h2 rfl) (consume_sync2_resync hc hs h2)

/-- Settles O9: the absorption of a framing error is the whole effect. -/
theorem sync2MissDrops : Obligations.Sync2MissDrops := by
  intro s b hc hs h2 h1
  exact row_and_consume (rxSync2MissDrop_eq_consume hc hs h2 h1) (consume_sync2_drop hc hs h2 h1)

/-- Settles O10: the branch tests no value of the byte. -/
theorem cmdStoresAnyByte : Obligations.CmdStoresAnyByte := by
  intro s b hc hs
  exact row_and_consume (rxCmd_eq_consume hc hs) (consume_cmd hc hs)

/-- Settles O11: the branch writes the buffer's id, and `previousId` waits for the completion. -/
theorem idIsStored : Obligations.IdIsStored := by
  intro s b hc hs
  exact row_and_consume (rxId_eq_consume hc hs) (consume_id hc hs)

/-- Settles O12: a size from 1 to 64 is neither oversize nor 0. -/
theorem legalSizeIsAccepted : Obligations.LegalSizeIsAccepted := by
  intro s n hc hs hpos hn
  have hz : n ≠ 0#8 := by rintro rfl; cases hpos
  exact row_and_consume (rxSizeOk_eq_consume hc hs hpos hn) (consume_size_ok hc hs hn hz)

/-- Settles O13: the size is stored before the error is absorbed. -/
theorem oversizeIsDiscarded : Obligations.OversizeIsDiscarded := by
  intro s n hc hs hn
  exact row_and_consume (rxSizeOver_eq_consume hc hs hn) (consume_size_over hc hs hn)

/-- Settles O14: the completion finds the position 0 and a message of no bytes. -/
theorem emptyFrameCompletes : Obligations.EmptyFrameCompletes := by
  intro s k hk hs hq
  have hc : s.callback ≠ none := by simp [hk]
  refine row_and_consume (rxSizeZero_eq_consume hc hs) ((consume_size_zero hc hs).trans ?_)
  exact complete_quiet_eq rfl hk hq hs (by simp) rfl

/-- Settles O15: below the size, the store is all that happens. -/
theorem payloadByteIsStored : Obligations.PayloadByteIsStored := by
  intro s d hc hs hm hp
  exact row_and_consume (rxPayloadMore_eq_consume hc hs hm) (consume_payload_more hc hs hm hp)

/-- Settles O16: the store brings the position to the size, and the completion finds the whole
message. -/
theorem lastPayloadByteCompletes : Obligations.LastPayloadByteCompletes := by
  intro s k d hk hs hl hp hq
  have hc : s.callback ≠ none := by simp [hk]
  have full : (takePayload [d] s).payloadPosition = s.bufPayloadSize :=
    BitVec.eq_of_toNat_eq ((takePayload_position hp).trans hl)
  refine row_and_consume (rxPayloadLast_eq_consume hc hs hl)
    ((consume_payload_last hc hs hl hp).trans ?_)
  exact complete_quiet_eq (s := takePayload [d] s) rfl hk hq hs List.length_append full
end

section
/-! PROOFS. The statements of 42_silence.md: what ON_SILENCE writes (R150), that it loses no later frame
(R151, R152), and when it cannot be told from its absence (R153). -/

namespace Sys2Proof.Machine

/-! ### ON_SILENCE after an INIT -/

theorem exec_onSilence_bound {s : State} (hc : s.callback ≠ none) :
    exec .onSilence s = .next (goTo .sync1 s) := by
  rw [exec_onSilence, if_neg hc]

/-- Going where the sequencer already is changes nothing. -/
theorem goTo_of_state {st : DecState} {s : State} (hs : s.state = st) : goTo st s = s := by
  rw [goTo, ← hs]

end Sys2Proof.Machine

open Sys2Proof Sys2Proof.Machine

/-- Settles O37: ON_SILENCE puts the decoder in SYNC_1 and leaves buffer, handler and counters alone;
from there a well-formed frame is delivered whatever the position was (R140), since it stores its own. -/
theorem silenceLosesNoLaterFrame : Obligations.SilenceLosesNoLaterFrame := by
  intro s k c i n p hk hw hq hn hlen
  have hc : s.callback ≠ none := by simp [hk]
  obtain ⟨m, -, taken⟩ :=
    wellFormedFrameIsDelivered (goTo .sync1 s) k c i n p hk rfl hw hq hn hlen
  rw [exec_onSilence_bound hc, andThen_of_next]
  exact ⟨_, _, taken, rfl, rfl, rfl, rfl, rfl⟩

/-- Settles O27: the return to SYNC_1 is the one write. -/
theorem silenceWritesOnlyState : Obligations.SilenceWritesOnlyState := by
  intro s hc
  rw [exec_onSilence_bound hc, goTo]

/-- Settles O28: before INIT both sides are refused; after it, the second return to SYNC_1, like the
first from SYNC_1, goes where the decoder already is. -/
theorem silenceIsIdempotent : Obligations.SilenceIsIdempotent := by
  intro s b
  by_cases hc : s.callback = none
  · have silent : exec .onSilence s = .refused .beforeInit := exec_before_init (by simp) hc
    have unread : exec (.consume b) s = .refused .beforeInit := exec_before_init (by simp) hc
    rw [silent, unread, andThen_of_refused, andThen_of_refused]
    exact ⟨rfl, fun _ => rfl⟩
  · have again : exec .onSilence (goTo .sync1 s) = .next (goTo .sync1 s) := by
      rw [exec_onSilence_bound (s := goTo .sync1 s) hc, goTo_of_state (goTo_state .sync1 s)]
    rw [exec_onSilence_bound hc, andThen_of_next, andThen_of_next]
    exact ⟨again, fun hs => by rw [goTo_of_state hs]⟩
end

section
/-! PROOFS. The statements of 43_encoder.md: the two forms of TRANSMIT (R162 to R168, R171, R172), two
TRANSMITs at once (R174), what a decoder makes of what was sent (R175, R178), and TRANSMIT beside
receiving (R176). -/

namespace Sys2Proof.Machine

/-! ### TRANSMIT, and its two forms -/

section
variable {tx : TxCall} (s : State)

theorem transmit_oversize (hn : 65 ≤ tx.payloadSize.toNat) :
    transmit tx s = .next (rejectCall s) :=
  if_pos ((isOversize_iff _).mpr hn)

theorem transmit_supplied (hn : tx.payloadSize.toNat ≤ 64)
    (hp : tx.payloadSize.toNat ≤ tx.payload.length) : transmit tx s = .next (acceptCall tx s) := by
  have supplied : payloadSupplied tx = true := decide_eq_true hp
  simp [transmit, (isOversize_false_iff _).mpr hn, supplied]

end

section
variable {c n r : Byte} {p : List Byte} {s : State}

theorem exec_transmitOk (hc : s.callback ≠ none) (hn : n.toNat ≤ 64) :
    exec (.transmitOk c p n r) s = transmit ⟨c, p, n, r⟩ s :=
  onlyWhen_true hc (by simp [(isOversize_false_iff n).mpr hn]) _

theorem exec_transmitReject (hc : s.callback ≠ none) (hn : 65 ≤ n.toNat) :
    exec (.transmitReject c p n r) s = transmit ⟨c, p, n, r⟩ s :=
  onlyWhen_true hc ((isOversize_iff n).mpr hn) _

/-- TRANSMIT.OK answers only where R163 accepts the call. -/
theorem exec_transmitOk_next {t : State} (h : exec (.transmitOk c p n r) s = .next t) :
    n.toNat ≤ 64 ∧ n.toNat ≤ p.length ∧ t = acceptCall ⟨c, p, n, r⟩ s := by
  obtain ⟨-, legal, sent⟩ := onlyWhen_next (show execTransmitOk c p n r s = .next t from h)
  rcases transmit_next sent with ⟨oversize, -⟩ | ⟨legal, supplied, accepted⟩
  · simp [oversize] at legal
  · exact ⟨(isOversize_false_iff n).mp legal, of_decide_eq_true supplied, accepted⟩

/-- Where a form of TRANSMIT answers, its condition reads only the size, so after INIT it is that
TRANSMIT in every state (30_encoding.md R89). -/
theorem exec_transmit_next {j : Instr} {u : State}
    (hj : j = .transmitOk c p n r ∨ j = .transmitReject c p n r) (h : exec j s = .next u) :
    s.callback ≠ none ∧ transmit ⟨c, p, n, r⟩ s = .next u ∧
      ∀ t : State, t.callback ≠ none → exec j t = transmit ⟨c, p, n, r⟩ t := by
  rcases hj with rfl | rfl
  · obtain ⟨hc, form, sent⟩ := onlyWhen_next (show execTransmitOk c p n r s = .next u from h)
    exact ⟨hc, sent, fun t ht => onlyWhen_true ht form _⟩
  · obtain ⟨hc, form, sent⟩ := onlyWhen_next (show execTransmitReject c p n r s = .next u from h)
    exact ⟨hc, sent, fun t ht => onlyWhen_true ht form _⟩

end

/-- A frame is its five header bytes and its payload (30_encoding.md R82). -/
theorem frameBytes_length {m : Message} (s : State)
    (hlen : m.payload.length = m.payloadSize.toNat) :
    (frameBytes s m).length = 5 + m.payloadSize.toNat := by
  simp only [frameBytes, List.length_append, List.length_cons, List.length_nil, hlen]

/-- Of the block a frame holds the sync values only (30_encoding.md R83). -/
theorem frameBytes_congr {s t : State} (h1 : t.sync1Val = s.sync1Val)
    (h2 : t.sync2Val = s.sync2Val) (m : Message) : frameBytes t m = frameBytes s m := by
  rw [frameBytes, frameBytes, h1, h2]

/-- An accepted call sends as many payload bytes as its size says (43_encoder.md R163, R172). -/
theorem txMessage_payload_length {tx : TxCall} (s : State)
    (hp : tx.payloadSize.toNat ≤ tx.payload.length) :
    (txMessage tx s).payload.length = (txMessage tx s).payloadSize.toNat :=
  List.length_take_of_le hp

/-! ### Receiving does not touch the encoder -/

/-- The encoder's register and outputs, replaced. -/
def setEncoder (e : Byte) (w : List (List Byte)) (r : List TxResult) (s : State) : State :=
  { s with txId := e, writes := w, results := r }

/-- Sends amount to a replacement of the encoder. -/
theorem OnlySends.eq_setEncoder {s t : State} (h : OnlySends s t) :
    t = setEncoder t.txId t.writes t.results s := h.frame

section
variable {b : Byte} {s t : State} (e : Byte) (w : List (List Byte)) (r : List TxResult)

@[simp] theorem setEncoder_state (s : State) : (setEncoder e w r s).state = s.state := rfl

/-- Calls that answer and do not transmit are no calls (41_decoder.md R138). -/
theorem eq_nil_of_runCalls {cs : List HandlerCall} (h : runCalls cs s = .next t)
    (silent : cs.any callTransmits = false) : cs = [] := by
  cases cs with
  | nil => rfl
  | cons c cs =>
    obtain ⟨u, called, -⟩ := andThen_next_iff.mp h
    cases c with
    | transmit | reportStatus => simp [callTransmits] at silent
    | consume | onSilence | init | writeBuffer => cases called

/-- COMPLETE neither reads nor writes the encoder, unless the handler transmits. -/
theorem complete_setEncoder (h : complete s = .next t) (silent : handlerTransmits s = false) :
    complete (setEncoder e w r s) = .next (setEncoder e w r t) := by
  obtain ⟨k, u, hk, called, -⟩ := complete_next h
  have quiet : nextCalls s = [] := eq_nil_of_runCalls called silent
  cases (complete_quiet hk quiet).symm.trans h
  exact complete_quiet (s := setEncoder e w r s) hk quiet

theorem storePayload_setEncoder (h : storePayload b s = .next t) :
    storePayload b (setEncoder e w r s) = .next (setEncoder e w r t) := by
  obtain ⟨inside, rfl⟩ := storePayload_next h
  exact storePayload_inside (s := setEncoder e w r s) inside

/-- The store that fills the buffer is that of a completing byte. -/
theorem completesFrame_of_storePayload (hs : s.state = .payload) (h : storePayload b s = .next t)
    (full : t.payloadPosition = t.bufPayloadSize) : completesFrame b s = true := by
  have position := storePayload_position h
  obtain ⟨-, rfl⟩ := storePayload_next h
  exact completesFrame_iff.mpr (.inr ⟨hs, position.symm.trans (congrArg BitVec.toNat full)⟩)

/-- CONSUME neither reads nor writes the encoder, unless it completes a frame and the handler transmits
(43_encoder.md R176). -/
theorem consumeByte_setEncoder (h : consumeByte b s = .next t)
    (silent : completesFrame b s = false ∨ handlerTransmits s = false) :
    consumeByte b (setEncoder e w r s) = .next (setEncoder e w r t) := by
  have called (completes : completesFrame b s = true) : handlerTransmits s = false :=
    silent.resolve_left (by simp [completes])
  cases hs : s.state <;> simp only [consumeByte, setEncoder_state, hs] at h ⊢
  case sync1 | sync2 =>
    cases h
    simp only [apply_ite (setEncoder e w r)]
    rfl
  case cmd | id =>
    cases h
    rfl
  case payloadSize =>
    split_ifs at h ⊢ with oversize zero
    · cases h
      rfl
    · exact complete_setEncoder (s := setPosition 0#8 (setSize b s)) e w r h
        (called (completesFrame_iff.mpr (.inl ⟨hs, zero⟩)))
    · cases h
      rfl
  case payload =>
    obtain ⟨u, stored, after⟩ := andThen_next_iff.mp h
    rw [storePayload_setEncoder e w r stored, andThen_of_next]
    split_ifs at after with full
    · refine (if_pos full).trans (complete_setEncoder e w r after ?_)
      obtain ⟨-, -, reactions⟩ := storePayload_traces stored
      rw [handlerTransmits, nextCalls, reactions]
      exact called (completesFrame_of_storePayload hs stored full)
    · cases after
      exact if_neg full

theorem consume_setEncoder (h : consume b s = .next t)
    (silent : completesFrame b s = false ∨ handlerTransmits s = false) :
    consume b (setEncoder e w r s) = .next (setEncoder e w r t) := by
  obtain ⟨hc, consumed⟩ := consume_next h
  exact (consume_bound (s := setEncoder e w r s) b hc).trans
    (consumeByte_setEncoder (s := noteByte b s) e w r consumed silent)

end

/-- ON_SILENCE, and a CONSUME in which the handler does not transmit, keep the parameters and do the
same beside any encoder (43_encoder.md R176). -/
theorem receiving_setEncoder {i : Instr} {b : Byte} {s t : State}
    (hi : i = .onSilence ∨
      (i = .consume b ∧ (completesFrame b s = false ∨ handlerTransmits s = false)))
    (h : exec i s = .next t) :
    SameParameters s t ∧
      ∀ e w r, exec i (setEncoder e w r s) = .next (setEncoder e w r t) := by
  rcases hi with rfl | ⟨rfl, silent⟩
  · rw [exec_onSilence] at h
    split_ifs at h with hc
    cases h
    exact ⟨⟨rfl, rfl, rfl⟩, fun e w r => exec_onSilence_bound (s := setEncoder e w r s) hc⟩
  · exact ⟨consume_sameParameters h, fun e w r => consume_setEncoder e w r h silent⟩

/-- A TRANSMIT reads the encoder and the sync values only, so it does the same to the encoder beside
any decoder. -/
theorem transmit_setEncoder {tx : TxCall} {s t u : State} (h : transmit tx s = .next u)
    (same : SameParameters s t) :
    transmit tx (setEncoder s.txId s.writes s.results t) =
      .next (setEncoder u.txId u.writes u.results t) := by
  have frame (m : Message) :
      frameBytes (setEncoder s.txId s.writes s.results t) m = frameBytes s m :=
    frameBytes_congr same.sync1Val same.sync2Val m
  rcases transmit_next h with ⟨oversize, rfl⟩ | ⟨legal, supplied, rfl⟩
  · exact if_pos oversize
  · simp only [transmit, legal, supplied, acceptCall, frame]
    rfl

end Sys2Proof.Machine

namespace Sys2Proof

open Sys2Proof.Machine

/-! ### A listening decoder takes a frame, and takes it again -/

theorem memWriteAll_wf {m : Memory} {k : Nat} {ds : List Byte} (hw : Memory.wf m = true)
    (hk : k + ds.length ≤ 64) : Memory.wf (memWriteAll m k ds) = true := by
  induction ds generalizing m k with
  | nil => exact hw
  | cons d ds ih =>
    rw [List.length_cons] at hk
    exact ih (memWrite_wf d (by omega) hw) (by omega)

theorem HandlerQuiet.nextCalls_eq_nil {s : State} (h : HandlerQuiet s) : nextCalls s = [] := by
  unfold nextCalls
  cases hr : s.reactions with
  | nil => rfl
  | cons calls rest => exact h calls (by simp [hr])

/-- A decoder that waits for a frame, with a canonical buffer and a handler that makes no call. -/
structure Listens (v : State) : Prop where
  bound : v.callback ≠ none
  resting : v.state = .sync1
  canonical : Memory.wf v.payload = true
  quiet : HandlerQuiet v

/-- From `v` to `t` the message was delivered `k` times and nothing else, no error was counted, and the
decoder listens again. -/
structure DeliversCopies (m : Message) (k : Nat) (v t : State) : Prop where
  listens : Listens t
  delivered : t.delivered.map Delivery.message =
    v.delivered.map Delivery.message ++ List.replicate k m
  errors : t.errors = v.errors
  previousId : t.previousId = m.id

theorem DeliversCopies.trans {m : Message} {j k : Nat} {v u t : State}
    (h : DeliversCopies m j v u) (h' : DeliversCopies m k u t) : DeliversCopies m (j + k) v t where
  listens := h'.listens
  delivered := by
    rw [h'.delivered, h.delivered, List.append_assoc, List.replicate_append_replicate]
  errors := h'.errors.trans h.errors
  previousId := h'.previousId

/-- A legal frame is delivered once (41_decoder.md R140), and leaves the decoder as ready for the next
one (R144). -/
theorem Listens.takes_frame {v : State} {m : Message} (hv : Listens v)
    (hn : m.payloadSize.toNat ≤ 64) (hlen : m.payload.length = m.payloadSize.toNat) :
    ∃ t, consumeAll (frameBytes v m) v = .next t ∧ DeliversCopies m 1 v t := by
  obtain ⟨c, i, n, p⟩ := m
  obtain ⟨hc, hs, hw, hq⟩ := hv
  obtain ⟨k, hk⟩ := Option.ne_none_iff_exists'.mp hc
  have taken : consumeAll (frameBytes v ⟨c, i, n, p⟩) v =
      complete (takeFrame c i n p (takeSync v)) :=
    (exec_frame_from_sync1 hc hs).trans (consumeAll_frame_from_cmd hc rfl hn hlen)
  have sent := message_takeFrame (c := c) (i := i) (s := takeSync v) hw hn hlen
  rw [takeFrame_takeSync v hlen] at taken sent
  have completed := complete_quiet_eq sent hk hq.nextCalls_eq_nil rfl rfl rfl
  refine ⟨_, taken.trans completed, ?_, ?_, rfl, rfl⟩
  · exact ⟨hc, rfl, memWriteAll_wf hw (by omega),
      fun calls hm => hq calls (List.mem_of_mem_tail hm)⟩
  · exact List.map_append

/-- The same frame `1 + k` times over is `1 + k` deliveries of one message (43_encoder.md R175, R178). -/
theorem Listens.takes_copies {v : State} {m : Message} (hv : Listens v)
    (hn : m.payloadSize.toNat ≤ 64) (hlen : m.payload.length = m.payloadSize.toNat) (k : Nat) :
    ∃ t, consumeAll (List.replicate (1 + k) (frameBytes v m)).flatten v = .next t ∧
      DeliversCopies m (1 + k) v t := by
  induction k generalizing v with
  | zero => simpa using hv.takes_frame hn hlen
  | succ k ih =>
    obtain ⟨u, first, once⟩ := hv.takes_frame hn hlen
    obtain ⟨sync1Val, sync2Val, -⟩ := consumeAll_sameParameters first
    obtain ⟨t, others, copies⟩ := ih once.listens
    rw [frameBytes_congr sync1Val sync2Val] at others
    refine ⟨t, ?_, Nat.add_comm 1 k ▸ once.trans copies⟩
    rw [← Nat.add_assoc, List.replicate_succ, List.flatten_cons, consumeAll_append, first,
      andThen_of_next, others]

end Sys2Proof

open Sys2Proof Sys2Proof.Machine

/-- Settles O38: what was sent is 1 + retries copies of one legal frame, each taken by a decoder that
listens and leaves it listening. -/
theorem retriesRoundTrip : Obligations.RetriesRoundTrip := by
  intro s u c p n r h
  obtain ⟨hn, hp, rfl⟩ := exec_transmitOk_next h
  refine ⟨frameBytes s (txMessage ⟨c, p, n, r⟩ s), rfl, fun v sync1 sync2 hc hs hw hq => ?_⟩
  have listens : Listens v := ⟨hc, hs, hw, hq⟩
  obtain ⟨t, taken, ⟨listening, delivered, errors, previousId⟩⟩ :=
    listens.takes_copies (m := txMessage ⟨c, p, n, r⟩ s) hn (txMessage_payload_length s hp) r.toNat
  exact ⟨t, frameBytes_congr sync1 sync2 _ ▸ taken, delivered, errors, listening.resting, previousId⟩

/-- Settles O32: the writes are 1 + retries copies of one frame, of 5 + payloadSize bytes. -/
theorem transmitCounts : Obligations.TransmitCounts := by
  intro s t c p n r h
  obtain ⟨-, hp, rfl⟩ := exec_transmitOk_next h
  have bytes : (frameBytes s (txMessage ⟨c, p, n, r⟩ s)).length = 5 + n.toNat :=
    frameBytes_length s (txMessage_payload_length s hp)
  simp [acceptCall, attempts, bytes]

/-- Settles O29: R163 to R168 are the accepted call's three writes. -/
theorem transmitSendsEveryAttempt : Obligations.TransmitSendsEveryAttempt := by
  intro s c p n r hc hn hp
  exact (exec_transmitOk hc hn).trans (transmit_supplied s hn hp)

/-- Settles O30: the size is tested before anything else is read. -/
theorem oversizeTransmitIsRejected : Obligations.OversizeTransmitIsRejected := by
  intro s c p n r hc hn
  exact (exec_transmitReject hc hn).trans (transmit_oversize s hn)

/-- Settles O31: TRANSMIT.OK is the TRANSMIT that a handler may call, and one with too short an operand
is refused in every state. -/
theorem shortPayloadIsRefused : Obligations.ShortPayloadIsRefused := by
  intro s c p n r hc hn hp
  exact (exec_transmitOk hc hn).trans (runCall_shortPayload hn hp s)

/-- Settles O56: the byte completes a frame, and a call that transmits is among the handler's. -/
theorem overlappingTransmitsAreRefused : Obligations.OverlappingTransmitsAreRefused := by
  intro s b pre cs c rest completing transmitting calls
  have completes : completesFrame b s = true := completesFrame_iff.mpr completing
  have transmits : handlerTransmits s = true := by
    rw [handlerTransmits, calls]
    rcases transmitting with ⟨tx, rfl⟩ | ⟨v, r, rfl⟩ <;> simp [callTransmits]
  have overlap : overlappingTransmits { s with requests := 0x05#8 :: b :: rest } = true :=
    (overlappingTransmits_of_byte rfl).trans (Bool.and_eq_true_iff.mpr ⟨completes, transmits⟩)
  rw [step_of_decoded (i := .consume b) (rest := 0x01#8 :: rest) rfl, if_pos overlap]

/-- Settles O33: receiving leaves the encoder as it was and TRANSMIT leaves everything else, so both
orders end in the decoder of the one beside the encoder of the other. -/
theorem transmitCommutesWithReceiving : Obligations.TransmitCommutesWithReceiving := by
  intro s t u i j b c p n r hi hj received sent
  obtain ⟨same, beside⟩ := receiving_setEncoder hi received
  obtain ⟨hc, sent, form⟩ := exec_transmit_next hj sent
  have bound : t.callback ≠ none := same.callback ▸ hc
  have kept : t = setEncoder s.txId s.writes s.results t :=
    Host.Outcome.next.inj (received.symm.trans (beside s.txId s.writes s.results))
  refine ⟨setEncoder u.txId u.writes u.results t, ?_, ?_⟩
  · rw [form t bound]
    exact (congrArg (transmit _) kept).trans (transmit_setEncoder sent same)
  · rw [(transmit_onlySends sent).eq_setEncoder]
    exact beside u.txId u.writes u.results
end

section
/-! PROOFS. The statements of 44_command_vocabulary.md: a status report sent from the callback (R184), and
the vocabulary's bytes, whose codes the block does not interpret (R180). -/

namespace Sys2Proof.Machine

/-! ### A status report from the callback -/

/-- The size operand of a status report is the open size itself: at most 64, it fits in a byte. -/
theorem statusCall_payloadSize_toNat (v : StatusValues) (r : Byte) (s : State) :
    (statusCall v r s).payloadSize.toNat = (Config.statusSize (statusReport v s)).val := by
  have bounded := (Config.statusSize (statusReport v s)).isLt
  rw [statusCall, BitVec.toNat_ofNat, Nat.mod_eq_of_lt (by omega)]

/-- COMPLETE under a handler that answers with one status report: the delivery and the return to SYNC_1,
then the report's TRANSMIT, which is always accepted. Nothing before the report writes `errors`, so it is
the report of the state in which the frame completes. -/
theorem complete_reportStatus {s : State} {k : Handler} {v : StatusValues} {r : Byte}
    (hk : s.callback = some k) (hq : nextCalls s = [.reportStatus v r]) :
    complete s = .next
      (acceptCall (statusCall v r s) (goTo .sync1 (recordDelivery k (recordId s)))) := by
  rw [complete_eq_runCalls hk, hq, runCalls, runCall, transmit_statusCall]
  rfl

/-! ### The vocabulary rows -/

/-- No entry of the vocabulary has a meaning of its own: its row is the CONSUME of its byte. -/
theorem exec_vocabulary (v : Vocabulary) (c : Byte) (s : State) :
    exec (v.instr c) s = exec (.consume c) s := by
  cases v <;> rfl

end Sys2Proof.Machine

open Sys2Proof Sys2Proof.Machine

/-- Settles O26: the size byte 0 completes the frame, and the report of that moment is accepted. -/
theorem statusReportCarriesTheErrorCount : Obligations.StatusReportCarriesTheErrorCount := by
  intro s k v r hk hs hq report
  have hc : s.callback ≠ none := by simp [hk]
  have reported := complete_reportStatus (s := setPosition 0#8 (setSize 0#8 (noteByte 0#8 s))) hk hq
  exact ⟨_, _, _, (rxSizeZero_eq_consume hc hs).trans ((consume_size_zero hc hs).trans reported),
    statusCall_payloadSize_toNat v r s, rfl, rfl, rfl, rfl, rfl, rfl, rfl⟩

/-- Settles O40: the seventeen rows are the vocabulary's entries, each the CONSUME of its byte, which in
CMD stores it untested. -/
theorem vocabularyBytesAreOpaque : Obligations.VocabularyBytesAreOpaque := by
  intro s c i row
  obtain ⟨v, -, rfl⟩ : ∃ v ∈ vocabularyRows, v.instr c = i := List.mem_map.mp row
  exact ⟨exec_vocabulary v c s, fun hc hs => (exec_vocabulary v c s).trans (consume_cmd hc hs)⟩
end

section
/-! PROOFS. The statements of 60_exceptions.md: operations asked for at once (R215), and the reference
watchdog (R223). -/

namespace Sys2Proof.Machine

/-! ### Strobes that may not be asserted together -/

/-- Requests that are no instruction are refused for the reason decoding gives. -/
theorem step_of_undecoded {s : State} {lead : Byte} {rest : List Byte} {e : DecodeError}
    (hr : s.requests = lead :: rest) (hl : lead ≠ 0#8) (ho : overlappingTransmits s = false)
    (h : decode s.ctx (lead :: rest) = .error e) : step s = .refused (refusalOf e) := by
  simp [step, fetch, hr, hl, ho, h]

/-- The strobe vectors with a meaning (30_encoding.md R97): nothing, one operation, and TRANSMIT beside a
byte or a silence event. -/
def allowedStrobes : List Byte := [0x00#8, 0x01#8, 0x02#8, 0x03#8, 0x04#8, 0x05#8, 0x08#8]

theorem decode_overlap (c : Ctx) {lead : Byte} (rest : List Byte) (strobes : lead.toNat < 16)
    (h : lead ∉ allowedStrobes) : decode c (lead :: rest) = .error .overlap := by
  simp only [allowedStrobes, List.mem_cons, List.not_mem_nil, or_false, not_or] at h
  simp [decode, decodeOperation, strobes, h]

theorem step_of_overlap {s : State} {lead : Byte} {rest : List Byte}
    (hr : s.requests = lead :: rest) (strobes : lead.toNat < 16) (h : lead ∉ allowedStrobes) :
    step s = .refused .overlap := by
  have idle : lead ≠ 0x00#8 := (ne_of_mem_of_not_mem (by decide) h).symm
  have byteTransmit : lead ≠ 0x05#8 := (ne_of_mem_of_not_mem (by decide) h).symm
  exact step_of_undecoded hr idle (overlappingTransmits_of_lead hr byteTransmit)
    (decode_overlap s.ctx rest strobes h)

/-! ### The reference watchdog -/

/-- The end of the line and a byte do not look at `idle`. -/
theorem watchdogRequests_idle_irrelevant {line : List LineEvent}
    (h : line = [] ∨ ∃ b rest, line = .byte b :: rest) (ticks idle idle' : Nat) :
    watchdogRequests ticks idle line = watchdogRequests ticks idle' line := by
  obtain rfl | ⟨b, rest, rfl⟩ := h <;> rfl

theorem watchdogRequests_tick_below {ticks idle : Nat} (h : idle + 1 < ticks)
    (line : List LineEvent) :
    watchdogRequests ticks idle (.tick :: line) = watchdogRequests ticks (idle + 1) line := by
  simp [watchdogRequests, tickFires, tickIdle, h.ne, Nat.lt_of_succ_lt h]

/-- The tick that reaches the threshold is the one that fires. -/
theorem watchdogRequests_tick_reaching (idle : Nat) (line : List LineEvent) :
    watchdogRequests (idle + 1) idle (.tick :: line) =
      encode .onSilence ++ watchdogRequests (idle + 1) (idle + 1) line := by
  simp [watchdogRequests, tickFires, tickIdle]

theorem watchdogRequests_tick_reached (ticks : Nat) (line : List LineEvent) :
    watchdogRequests ticks ticks (.tick :: line) = watchdogRequests ticks ticks line := by
  simp [watchdogRequests, tickFires, tickIdle]

/-- Once the threshold is reached, no further tick of the silence fires. -/
theorem watchdogRequests_ticks_reached (ticks n : Nat) (line : List LineEvent) :
    watchdogRequests ticks ticks (List.replicate n .tick ++ line) =
      watchdogRequests ticks ticks line := by
  induction n with
  | zero => rfl
  | succ n ih => exact (watchdogRequests_tick_reached ticks _).trans ih

/-- A silence that has not fired yet fires once if its remaining ticks take it to the threshold, and
then goes on at the threshold or below it. -/
theorem watchdogRequests_ticks {ticks idle : Nat} (h : idle < ticks) (n : Nat)
    (line : List LineEvent) :
    watchdogRequests ticks idle (List.replicate n .tick ++ line) =
      (if ticks ≤ idle + n then encode .onSilence else []) ++
        watchdogRequests ticks (min ticks (idle + n)) line := by
  induction n generalizing idle with
  | zero => simp [Nat.not_le.mpr h, Nat.min_eq_right h.le]
  | succ n ih =>
    rw [List.replicate_succ, List.cons_append]
    obtain rfl | below := Nat.eq_or_lt_of_le (Nat.succ_le_of_lt h)
    · rw [watchdogRequests_tick_reaching, watchdogRequests_ticks_reached,
        if_pos (by omega), Nat.min_eq_left (by omega)]
    · rw [watchdogRequests_tick_below below, ih below, Nat.add_right_comm idle 1 n, Nat.add_assoc]

end Sys2Proof.Machine

open Sys2Proof Sys2Proof.Machine

/-- Settles O58: the byte clears `idle`, its silence fires once or not at all, and what follows does not
look at `idle`. -/
theorem watchdogFiresOncePerSilence : Obligations.WatchdogFiresOncePerSilence := by
  intro ticks idle n b line positive ends
  calc watchdogRequests ticks idle (.byte b :: (List.replicate n .tick ++ line))
    _ = encode (.consume b) ++ watchdogRequests ticks 0 (List.replicate n .tick ++ line) := rfl
    _ = encode (.consume b) ++ ((if ticks ≤ n then encode .onSilence else []) ++
          watchdogRequests ticks (min ticks n) line) := by
      rw [watchdogRequests_ticks positive, Nat.zero_add]
    _ = encode (.consume b) ++ (if ticks ≤ n then encode .onSilence else []) ++
          watchdogRequests ticks 0 line := by
      rw [watchdogRequests_idle_irrelevant ends ticks (min ticks n) 0, List.append_assoc]

/-- Settles O54: each of the nine is a strobe vector, and none is one that R97 allows. -/
theorem overlapIsRefused : Obligations.OverlapIsRefused := by
  intro s lead rest conflict
  obtain ⟨strobes, unlisted⟩ : lead.toNat < 16 ∧ lead ∉ allowedStrobes := by
    revert lead
    decide
  exact step_of_overlap (s := { s with requests := lead :: rest }) rfl strobes unlisted
end

section
/-! PROOFS. The statements of 70_reset_and_hazards.md: what is refused before the first INIT (R241), and
what reset leaves (R240, R242). -/

namespace Sys2Proof.Machine

/-! ### Reset is a fixed point of INIT -/

/-- INIT with the handler bound at reset finds every register it writes at the value it writes there
(70_reset_and_hazards.md R240), whatever the sync values. -/
@[simp] theorem initialise_resetWith (sync1 sync2 : Byte) :
    initialise ⟨0#8⟩ (State.resetWith sync1 sync2) = State.resetWith sync1 sync2 := rfl

end Sys2Proof.Machine

open Sys2Proof Sys2Proof.Machine

/-- Settles O3: of all rows only INIT's does not ask for a bound handler. -/
theorem operationsBeforeInitAreRefused : Obligations.OperationsBeforeInitAreRefused :=
  fun _ _ unbound noInit => exec_before_init noInit unbound

/-- Settles O4: the registers are read off the reset state, which INIT's writes leave as it is. -/
theorem resetLeavesWhatInitLeaves : Obligations.ResetLeavesWhatInitLeaves := by
  refine ⟨rfl, rfl, rfl, rfl, rfl, rfl, ?_⟩
  rw [exec_init_some, State.reset, initialise_resetWith]
end
